-- ==== Sys2Proof/Word.lean ====
section
/-! DEFINITION. The two word types of the block: the byte of both memories (R62, R63) and the 32-bit word
of the host registers, the micro-operation port and the CTRL write (R8, R90). -/

namespace Sys2Proof

/-- One PCM sample, one CAS element (R65). -/
abbrev Byte := BitVec 8

/-- One host register, one micro-operation word, one CAS or OUT address (R8). -/
abbrev Word := BitVec 32

end Sys2Proof
end

