-- ==== Sys2Proof/Syntax.lean ====
section
/-! DEFINITION. The instructions: one constructor for each row of the opcode table, five micro-operations of
format M (R92) and the two host commands of format C (R101). -/

namespace Sys2Proof

/-- The tone of a pulse, the bit `T` of R94: LONG is 0 (1200 Hz nominal), SHORT is 1 (2400 Hz nominal). -/
inductive Tone where
  | long
  | short
  deriving DecidableEq, Repr

/-- An instruction of the block. Sample and pulse counts are numbers, the payload is a byte. -/
inductive Instr where
  /-- `SIL N` (R93, R180): `N` midline samples. -/
  | sil (n : Nat)
  /-- `PULSE T` (R94, R144): one cycle of a tone. -/
  | pulse (t : Tone)
  /-- `HDR P` (R95, R181): `P` SHORT pulses. -/
  | hdr (p : Nat)
  /-- `BYTE D` (R96, R160): line-encode one byte. -/
  | byte (d : Byte)
  /-- `FIN` (R97, R240): write the WAV header and publish the length. -/
  | fin
  /-- `START` (R101, R260): begin a run. -/
  | start
  /-- `SRST` (R101, R263): soft reset. -/
  | srst
  deriving DecidableEq, Repr

/-- The rows of format M, which the modulator executes; the others are CTRL write values and "never reach the
modulator" (R101). -/
def Instr.isMicroOp : Instr → Bool
  | .sil _ => true
  | .pulse _ => true
  | .hdr _ => true
  | .byte _ => true
  | .fin => true
  | .start => false
  | .srst => false

end Sys2Proof
end

