-- ==== Sys2Proof/WellFormed.lean ====
section
/-! DEFINITION. Which instructions an encoding exists for: "An operand out of range (`N` or `P >= 2^28`, …) is
refused by the assembler: it spells no word" (R102). The payload of BYTE is a byte by its type; its range check
stands where a number becomes a byte, in Machine/Assembler.lean. -/

namespace Sys2Proof

/-- An instruction is well formed when its count fits the 28 bits of `ARG` (R93, R95). -/
def WellFormed : Instr → Bool
  | .sil n => decide (n < 2 ^ 28)
  | .pulse _ => true
  | .hdr p => decide (p < 2 ^ 28)
  | .byte _ => true
  | .fin => true
  | .start => true
  | .srst => true

end Sys2Proof
end

