-- ==== Sys2Proof/Decode.lean ====
section
/-! DEFINITION. The decoders of the two formats, total and rejecting by name (R91 to R101), and after them the
encoder, written from the same encoding tables. -/

namespace Sys2Proof

/-- Why a word is no instruction. -/
inductive Reject where
  /-- `OP` is 0x0 or 0x6 to 0xF (R98). -/
  | reservedOpcode (op : BitVec 4)
  /-- PULSE with `w[27:1] != 0` (R98). -/
  | pulseReservedBits
  /-- BYTE with `w[27:8] != 0` (R98). -/
  | byteReservedBits
  /-- FIN with `w[27:0] != 0` (R98). -/
  | finReservedBits
  /-- A CTRL write with bits 1 and 0 both 0 is no command (R101). -/
  | noCommand
  deriving DecidableEq, Repr

/-- The field `OP`, bits 31:28 (R91). -/
def opField (w : Word) : BitVec 4 := w.extractLsb' 28 4

/-- The field `ARG`, bits 27:0 (R91). -/
def argField (w : Word) : BitVec 28 := w.extractLsb' 0 28

/-- The tone a bit `T` selects (R94). -/
def toneOfBit (b : Bool) : Tone := if b then .short else .long

/-- The bit `T` of a tone (R94). -/
def toneBit : Tone → BitVec 1
  | .long => 0
  | .short => 1

/-- The micro-operation decoder, format M (R92 to R98). -/
def decodeMop (w : Word) : Except Reject Instr :=
  let arg := argField w
  if opField w = 0x1 then .ok (.sil arg.toNat)
  else if opField w = 0x2 then
    if arg.extractLsb' 1 27 = 0 then .ok (.pulse (toneOfBit (arg.getLsbD 0))) else .error .pulseReservedBits
  else if opField w = 0x3 then .ok (.hdr arg.toNat)
  else if opField w = 0x4 then
    if arg.extractLsb' 8 20 = 0 then .ok (.byte (arg.extractLsb' 0 8)) else .error .byteReservedBits
  else if opField w = 0x5 then
    if arg = 0 then .ok .fin else .error .finReservedBits
  else .error (.reservedOpcode (opField w))

/-- The decoder of a value written to CTRL, format C (R101): SRST wins over START, bits 31:2 are ignored. -/
def decodeCtrl (c : Word) : Except Reject Instr :=
  if c.getLsbD 1 then .ok .srst
  else if c.getLsbD 0 then .ok .start
  else .error .noCommand

/-- The instruction of a table word. The table mixes two formats that reach two different ports; a word is read
as a micro-operation where it is a legal one, otherwise as a CTRL write (DESIGN CHOICE: log 5). -/
def decodeTableWord (nbits w : Nat) : Option Instr :=
  let x : Word := BitVec.ofNat 32 (w % 2 ^ nbits)
  match decodeMop x with
  | .ok i => some i
  | .error _ =>
    match decodeCtrl x with
    | .ok i => some i
    | .error _ => none

/-- The word of an instruction (R93 to R97, R101 to R102). -/
def encode : Instr → Word
  | .sil n => (0x1 : BitVec 4) ++ BitVec.ofNat 28 n
  | .pulse t => (0x2 : BitVec 4) ++ (0 : BitVec 27) ++ toneBit t
  | .hdr p => (0x3 : BitVec 4) ++ BitVec.ofNat 28 p
  | .byte d => (0x4 : BitVec 4) ++ (0 : BitVec 20) ++ d
  | .fin => (0x5 : BitVec 4) ++ (0 : BitVec 28)
  | .start => 0x00000001
  | .srst => 0x00000002

/-- The bits a row of the opcode table fixes, its `mask` (R93 to R97, R101). -/
def rowMask : Instr → Word
  | .sil _ => 0xF0000000
  | .pulse _ => 0xFFFFFFFE
  | .hdr _ => 0xF0000000
  | .byte _ => 0xFFFFFF00
  | .fin => 0xFFFFFFFF
  | .start => 0x00000003
  | .srst => 0x00000002

/-- The value of those bits, the row's `match` (R93 to R97, R101). -/
def rowMatch : Instr → Word
  | .sil _ => 0x10000000
  | .pulse _ => 0x20000000
  | .hdr _ => 0x30000000
  | .byte _ => 0x40000000
  | .fin => 0x50000000
  | .start => 0x00000001
  | .srst => 0x00000002

end Sys2Proof
end

