-- ==== Sys2Proof/Config.lean ====
section
/-! DEFINITION. The implementation parameters of R8, and the free values: what the spec leaves unspecified is an
opaque constant, so that no proof can lean on a value. -/

namespace Sys2Proof

/-- The parameters the sources leave open (R8). They are the configuration, not state (R20); `State.cfg` carries
them unchanged, so that every statement about every state holds for every choice of them (log 1). -/
structure Config where
  /-- `OUT_CAP`, the capacity of the output sample memory in bytes. -/
  outCap : Word
  /-- `CAS_CAP`, the capacity of the CAS input memory in bytes. -/
  casCap : Word
  deriving DecidableEq, Repr

/-- The constraint R8 puts on the parameters: `44 <= OUT_CAP`; the upper bounds are the width's. -/
abbrev Config.legal (c : Config) : Prop := 44 ≤ c.outCap.toNat

/-- The parameters of `State.reset` (DESIGN CHOICE, unsafe: log 1): the largest memories R8 allows. -/
def Config.largest : Config := { outCap := 0xFFFFFFFF, casCap := 0xFFFFFFFF }

/-- A free byte, by the number of the draw: R40 "a model must treat a read of it as any value (a draw)". -/
opaque Config.freeByte : Nat → Byte

/-- A free word, by the number of the draw. -/
opaque Config.freeWord : Nat → Word

/-- A free choice between two readings, by the number of the draw (U12 of 93_implementation_defined.md). -/
opaque Config.freeBool : Nat → Bool

/-- What CAS memory holds at an address nobody has written since power-on number `epoch` (R40, U6; log 8). -/
opaque Config.casPowerOn : (epoch : Nat) → (address : Nat) → Byte

end Sys2Proof
end

