-- ==== Sys2Proof/Machine/Constants.lean ====
section
/-! DEFINITION. The fixed constants of R6: "None is configurable". -/

namespace Sys2Proof.Machine

/-- `SR`, samples per second (R6). -/
def sampleRate : Nat := 43200

/-- `MID`, the midline sample (R6, R124). -/
def midline : Byte := 0x80

/-- `HLEN`, the bytes of the header region (R6). -/
def headerLength : Nat := 44

/-- `S_LONG` (R6): pulses of a long header at 1200 baud. -/
def longHeader : Nat := 16000

/-- `S_SHORT` (R6): pulses of a short header at 1200 baud. -/
def shortHeader : Nat := 4000

/-- `STOP_PULSES` (R6, R164). -/
def stopPulses : Nat := 4

/-- `SIL_1S` (R6, R182). -/
def silence1s : Nat := sampleRate

/-- `SIL_2S` (R6, R182). -/
def silence2s : Nat := 2 * sampleRate

/-- `LEADIN_MAX_S` (R8): the largest `s` with `s × 43200 <= 2^28 - 1`. -/
def leadinMax : Int := 6213

/-- `EOFB`, the EOF sentinel (R6). -/
def eofByte : Byte := 0x1A

/-- `SYNC`, the synchronization marker (R6). -/
def syncMarker : List Byte := [0x1F, 0xA6, 0xDE, 0xBA, 0xCC, 0x13, 0x7D, 0x74]

/-- `T_ASCII` (R6). -/
def typeAscii : List Byte := List.replicate 10 0xEA

/-- `T_BIN` (R6). -/
def typeBin : List Byte := List.replicate 10 0xD0

/-- `T_BASIC` (R6). -/
def typeBasic : List Byte := List.replicate 10 0xD3

end Sys2Proof.Machine
end

