-- ==== Sys2Proof/Machine/State.lean ====
section
/-! DEFINITION. The state of the block, all of it (R20), as plain data, with the reasons a step can stop and the
state after a power-on reset (R40). -/

namespace Sys2Proof.Machine

/-- A byte memory: (address, byte) pairs at strictly rising addresses. An address that is not listed holds no value
the model knows (R40 "unspecified"). -/
abbrev Memory := List Host.Cell

/-- The mode of a block (R23); the numeric codes are `Mode.code`. -/
inductive Mode where
  | unknown
  | ascii
  | binary
  | basic
  deriving DecidableEq, Repr

/-- The error codes of R29; the numeric codes are `ErrCode.code`. Codes 5 to 7 are never produced. -/
inductive ErrCode where
  | none
  | truncatedBlock
  | outputOverflow
  | badConfig
  | illegalMop
  deriving DecidableEq, Repr

/-- The register `STATUS` by its fields (R28); its word is `Status.word`. `mode` and `modeValid` are the internal
registers of R34 as well: "the same storage, not copies". -/
structure Status where
  busy : Bool
  done : Bool
  err : Bool
  errcode : ErrCode
  mode : Mode
  modeValid : Bool
  deriving DecidableEq, Repr

/-- STATUS with every field 0, as power-on reset and SRST leave it (R40, R263). -/
def Status.clear : Status :=
  { busy := false, done := false, err := false, errcode := .none, mode := .unknown, modeValid := false }

/-- The TPSM state `st` (R32). -/
inductive TpsmState where
  | idle
  | scanning
  | dispatching
  | done
  deriving DecidableEq, Repr

/-- Which line of a policy comes next while DISPATCHING (R210, R212 to R214). -/
inductive Stage where
  /-- `issue SIL …` before a chunk. -/
  | silence
  /-- `issue HDR …` before a chunk. -/
  | header
  /-- the per-byte phase of `Data()`. -/
  | bytes
  /-- the tail phase of `Data()`; `t0` is the pseudocode's variable. -/
  | tail (t0 : Word)
  /-- `Data()` has returned. -/
  | chunkEnd
  deriving DecidableEq, Repr

/-- The transient registers of the pulse synthesizer (R36) and of the line encoder and emitters (R37). -/
structure Transient where
  ph : BitVec 6
  inc : BitVec 3
  pcnt : BitVec 6
  sr : Byte
  bi : BitVec 3
  rem : BitVec 28
  deriving DecidableEq, Repr

/-- What `raise E(info)` carries (R301); no register holds it (U10 of 93_implementation_defined.md). -/
inductive ErrorInfo where
  /-- the marker address of a TRUNCATED_BLOCK. -/
  | marker (a : Word)
  /-- the write pointer of an OUTPUT_OVERFLOW. -/
  | writePointer (wp : Word)
  /-- the word of an ILLEGAL_MOP. -/
  | word (w : Word)
  deriving DecidableEq, Repr

/-- The size of a register-port access (R41). -/
inductive Width where
  | byte
  | half
  | word
  deriving DecidableEq, Repr

/-- One thing the outside world does to the block. A memory access of the host is one byte wide (DESIGN CHOICE: log 22). -/
inductive HostOp where
  /-- read the register port at a byte offset (R22, R41). -/
  | readReg (width : Width) (offset : Nat)
  /-- write the register port at a byte offset (R22, R41). -/
  | writeReg (width : Width) (offset : Nat) (v : Word)
  /-- write a byte of CAS memory (R60, R75). -/
  | writeCas (address : Word) (b : Byte)
  /-- read a byte of OUT memory (R64, R72). -/
  | readOut (address : Word)
  /-- drive the micro-operation port with a list of words (R266). -/
  | drive (prog : List Word)
  /-- the platform asserts the power-on reset (R340). -/
  | powerOn
  deriving DecidableEq, Repr

/-- Who moves next: the block, or the host (log 3). -/
inductive Turn where
  | block
  | host (op : HostOp)
  deriving DecidableEq, Repr

/-- The machine. -/
structure State where
  /-- the parameters `OUT_CAP` and `CAS_CAP` (R8); `OUT_CAP` is also the register at 0x18 (R30). -/
  cfg : Config
  /-- `STATUS` (R28), with `mode` and `mode_valid` (R34). -/
  status : Status
  /-- `BAUD` (R24). -/
  baud : Word
  /-- `LEADIN_S` (R25). -/
  leadinS : Word
  /-- `CAS_LEN` (R26). -/
  casLen : Word
  /-- `OUT_LEN` (R30). -/
  outLen : Word
  /-- `st` (R32). -/
  st : TpsmState
  /-- `cur` (R32). -/
  cur : Mode
  /-- `pos`, the CAS cursor (R31). -/
  pos : Word
  /-- `eof` (R33). -/
  eof : Bool
  /-- `wp`, the write pointer (R35). -/
  wp : Word
  /-- `ph`, `inc`, `pcnt`, `sr`, `bi`, `rem` (R36, R37). -/
  regs : Transient
  /-- the CAS input memory (R61). -/
  cas : Memory
  /-- the output sample memory (R63, R64). -/
  out : Memory
  /-- which line of the policy comes next (R212 to R214). -/
  stage : Stage
  /-- whether the chunk at hand is a second or later one of its block (R213, R214). -/
  further : Bool
  /-- the words of the micro-operation port still to execute, `none` when no program runs (R266). -/
  prog : Option (List Word)
  /-- the model's own: the host wrote CAS memory during the present run (R75; log 9). -/
  casTainted : Bool
  /-- the model's own: which power-on's unspecified CAS contents hold (log 8). -/
  casEpoch : Nat
  /-- the model's own: how many free values have been drawn (log 7). -/
  draws : Nat
  /-- the model's own observation: the words issued in the present START run (R201, R318; log 16). -/
  trace : List Word
  /-- the model's own observation: what the last error carried (R301, U10; log 16). -/
  errInfo : Option ErrorInfo
  /-- the model's own: the value the host's last read returned (log 16). -/
  readData : Word
  /-- the model's own: what the host does, and when the block moves (log 3). -/
  schedule : List Turn
  deriving DecidableEq, Repr

/-- The reasons a step can stop with a fault. Both stop a HOST access; no instruction faults. -/
inductive Fault where
  /-- The host writes CAS memory at an address the memory does not have, `>= CAS_CAP` (R60). Raised by
  `Sys2Proof.Machine.hostAccess`; safe (log 15). -/
  | casAddress (a : Word)
  /-- The host reads OUT memory at an address the memory does not have, `>= OUT_CAP` (R60). Raised by
  `Sys2Proof.Machine.hostAccess`; safe (log 15). -/
  | outAddress (a : Word)
  deriving DecidableEq, Repr

/-- The reasons a step can be refused. -/
inductive Refusal where
  /-- An instruction of the table without a meaning yet. Raised by an arm of `exec` alone; safe. -/
  | notModelled (mnemonic : String)
  /-- A sub-word, misaligned or out-of-window register-port access: R41 "a model refuses it". Raised by
  `Sys2Proof.Machine.hostAccess`; safe (log 15). -/
  | portAccess (width : Width) (offset : Nat)
  /-- The micro-operation port is driven while a run is in progress, for which the spec gives no effect. Raised by
  `Sys2Proof.Machine.hostAccess`; safe (log 14). -/
  | microOpPortBusy
  deriving DecidableEq, Repr

/-- The transient registers at reset, which R40 leaves unspecified (DESIGN CHOICE 0, unsafe: log 6). -/
def Transient.initial : Transient := { ph := 0, inc := 0, pcnt := 0, sr := 0, bi := 0, rem := 0 }

/-- The machine right after a power-on reset, for the parameters `c` (R40, R341). Both memories list nothing: their
contents are unspecified. -/
def State.powerOn (c : Config) : State where
  cfg := c
  status := Status.clear
  baud := 1200
  leadinS := 0
  casLen := 0
  outLen := 0
  st := .idle
  cur := .unknown
  pos := 0
  eof := false
  wp := 44
  regs := Transient.initial
  cas := []
  out := []
  stage := .silence
  further := false
  prog := none
  casTainted := false
  casEpoch := 0
  draws := 0
  trace := []
  errInfo := none
  readData := 0
  schedule := []

/-- The machine right after reset, at the parameters of log 1. -/
def State.reset : State := State.powerOn Config.largest

end Sys2Proof.Machine
end

