-- ==== Sys2Proof/Machine/Ops.lean ====
section
/-! DEFINITION. The named operations over memory and registers that every meaning is built from: the two byte
memories (R62, R63), the free values, the sample accumulator (R122), raising an error (R304) and ending a run
(R262), and the power-on reset (R340). -/

namespace Sys2Proof.Machine

/-! ## Byte memories -/

/-- The byte a memory lists at an address; `none` where it lists none. -/
def Memory.read (m : Memory) (a : Nat) : Option Byte := (m.find? fun c => c.1 == a).map Prod.snd

/-- Consecutive bytes from an address on. -/
def Memory.cells (a : Nat) (vs : List Byte) : Memory := (vs.zipIdx a).map fun x => (x.2, x.1)

/-- Store consecutive bytes from an address on, in one pass; no byte, no change. -/
def Memory.writeRun (m : Memory) (a : Nat) (vs : List Byte) : Memory :=
  if vs.isEmpty then m
  else
    (m.filter fun c => decide (c.1 < a)) ++ Memory.cells a vs ++ (m.filter fun c => decide (a + vs.length ≤ c.1))

/-- Store one byte: `MemWrite` of R63 and the host's CAS write of R60. -/
def Memory.write (m : Memory) (a : Nat) (v : Byte) : Memory := m.writeRun a [v]

/-- The canonical form: addresses strictly rising. An unlisted address reads as no value, which no entry can equal. -/
abbrev Memory.wf (m : Memory) : Prop := m.Pairwise fun c d => c.1 < d.1

/-! ## Free values -/

/-- A read of something unspecified (R40 "any value (a draw)"): the next free byte. -/
def drawByte (s : State) : Byte × State := (Config.freeByte s.draws, { s with draws := s.draws + 1 })

/-- The next free word. -/
def drawWord (s : State) : Word × State := (Config.freeWord s.draws, { s with draws := s.draws + 1 })

/-- The next free choice. -/
def drawBool (s : State) : Bool × State := (Config.freeBool s.draws, { s with draws := s.draws + 1 })

/-! ## CAS memory as the block reads it -/

/-- What CAS memory holds at an address: the byte last written there, else the unspecified byte it holds since
power-on, the same at every read (R62 "two reads of one address in one run return the same byte"; log 8). -/
def casByte (s : State) (a : Nat) : Byte := (s.cas.read a).getD (Config.casPowerOn s.casEpoch a)

/-- `MemRead(CAS, a, 1)` (R62). Once the host has written CAS memory during the run, "every later CAS read of that
run returns an unspecified value" (R75). -/
def casRead (a : Nat) (s : State) : Byte × State :=
  if s.casTainted then drawByte s else (casByte s a, s)

/-- `cas[a .. a+n-1]`, "a sequence of one-byte reads" (R11, R62). -/
def casWindow : (n a : Nat) → State → List Byte × State
  | 0, _, s => ([], s)
  | n + 1, a, s =>
    let r := casRead a s
    let q := casWindow n (a + 1) r.2
    (r.1 :: q.1, q.2)

/-- `CAS_LEN - pos`, the bytes left in the stream (R205, R207, R210). -/
def bytesLeft (s : State) : Nat := s.casLen.toNat - s.pos.toNat

/-! ## Errors and the end of a run -/

/-- TAKING AN ERROR: `RaiseError(code)` of R304. It ends whatever run is in progress, a TPSM run or a program of the
micro-operation port (R266); `pos`, `eof`, `cur`, `wp`, the mode, the configuration registers and both memories
keep their values. -/
def raiseError (code : ErrCode) (info : Option ErrorInfo) (s : State) : State :=
  { s with
    st := .idle
    status := { s.status with busy := false, err := true, errcode := code, done := true }
    outLen := 0
    prog := none
    errInfo := info }

/-- The end of a run without an error: R262, and the two endings of R266. `ERR` and `ERRCODE` keep their 0. -/
def endRun (s : State) : State :=
  { s with
    st := .idle
    status := { s.status with busy := false, done := true }
    prog := none }

/-! ## The sample accumulator -/

/-- `Emit(v)` (R122): `.ok` when the sample is written, `.error` when it raised OUTPUT_OVERFLOW. -/
def emit (v : Byte) (s : State) : Except State State :=
  if s.cfg.outCap.toNat ≤ s.wp.toNat then
    .error (raiseError .outputOverflow (some (.writePointer s.wp)) s)
  else
    .ok { s with out := s.out.write s.wp.toNat v, wp := s.wp + 1 }

/-- One `Emit` of a micro-operation: the sample, and the transient registers at that moment. -/
structure Emission where
  value : Byte
  regs : Transient
  deriving DecidableEq, Repr

/-- The samples of a list of `Emit`s, in order. -/
def samplesOf (es : List Emission) : List Byte := es.map Emission.value

/-- A micro-operation's `Emit`s one by one, as its pseudocode makes them; `fin` is what the transient registers hold
after the last. An `Emit` that raises stops the micro-operation (R126). -/
def emitEach : List Emission → Transient → State → State
  | [], fin, s => { s with regs := fin }
  | e :: es, fin, s =>
    match emit e.value { s with regs := e.regs } with
    | .ok t => emitEach es fin t
    | .error t => t

/-- The same in one pass: the samples that fit are stored at `wp` onward, and if one does not fit OUTPUT_OVERFLOW is
raised in front of it (R125, R126). `Sys2Proof.Laws.emitAll_eq_emitEach` says that it is `emitEach`. -/
def emitAll (es : List Emission) (fin : Transient) (s : State) : State :=
  let room := s.cfg.outCap.toNat - s.wp.toNat
  let vs := samplesOf (es.take room)
  let s1 := { s with
    out := s.out.writeRun s.wp.toNat vs
    wp := s.wp + BitVec.ofNat 32 vs.length }
  match es.drop room with
  | [] => { s1 with regs := fin }
  | e :: _ => raiseError .outputOverflow (some (.writePointer s1.wp)) { s1 with regs := e.regs }

/-- The `Emit`s of a loop body run for the indices `0 .. n-1`, in order. -/
def emissionLoop (n : Nat) (body : Nat → List Emission) : List Emission :=
  (List.replicate n ()).zipIdx.flatMap fun x => body x.2

/-! ## Power-on reset -/

/-- The power-on reset (R340): every register as in R40, a run aborted, no error reported. What the memories hold
afterwards is unspecified (R341), so both are forgotten and CAS memory enters a new epoch (log 12). -/
def powerOnReset (s : State) : State :=
  { State.powerOn s.cfg with
    draws := s.draws + 1
    casEpoch := s.draws + 1
    schedule := s.schedule }

end Sys2Proof.Machine
end

