-- ==== Sys2Proof/Machine/Operands.lean ====
section
/-! DEFINITION. What the operands and the configuration registers turn into: the baud factor, tones, pulse lengths
(R141), silence and header counts (R182, R183, R203), and the configuration check of START (R261). -/

namespace Sys2Proof.Machine

/-- `K = BAUD div 1200` for the two legal rates (R7); no factor for any other value (R149). -/
def baudFactor (baud : Word) : Option Nat :=
  if baud = 1200 then some 1 else if baud = 2400 then some 2 else none

/-- `f div 1200` for a tone, which is also `1 + T` (R141). -/
def toneRatio : Tone → Nat
  | .long => 1
  | .short => 2

/-- The phase increment `inc = (1 + T) × K` (R141, R143). -/
def phaseIncrement (k : Nat) (t : Tone) : Nat := toneRatio t * k

/-- The samples of a pulse, `L = 43200 div (BAUD × (f div 1200))` with `BAUD = 1200 × K` (R141). -/
def pulseLength (k : Nat) (t : Tone) : Nat := sampleRate / (1200 * k * toneRatio t)

/-- `LEAD` (R203): `LEADIN_S` is read as a signed number. -/
def leadSamples (leadinS : Word) : Nat :=
  if 0 < leadinS.toInt then leadinS.toInt.toNat * sampleRate else silence2s

/-- The operand of the SIL before a chunk (R182, R212 to R214): one second before a further chunk; before a block's
first chunk two seconds in an Unknown block and `LEAD` in any other. -/
def chunkSilence (s : State) : Nat :=
  if s.further then silence1s
  else
    match s.cur with
    | .unknown => silence2s
    | .ascii => leadSamples s.leadinS
    | .binary => leadSamples s.leadinS
    | .basic => leadSamples s.leadinS

/-- The operand of the HDR before a chunk, `s × K` (R183): a long header before a block's first chunk, a short one
before a further chunk. -/
def chunkHeader (s : State) : Nat :=
  (if s.further then shortHeader else longHeader) * (s.baud.toNat / 1200)

/-- `ConfigOk()` (R261). -/
def configOk (s : State) : Bool :=
  (baudFactor s.baud).isSome && decide (s.leadinS.toInt ≤ leadinMax) &&
    decide (s.casLen.toNat ≤ s.cfg.casCap.toNat)

/-- The samples a micro-operation emits under baud factor `k` when all of them fit (R165, R180, R181, R225). -/
def sampleCount (k : Nat) : Instr → Nat
  | .sil n => n
  | .pulse t => pulseLength k t
  | .hdr p => p * (18 / k)
  | .byte _ => 396 / k
  | .fin => 0
  | .start => 0
  | .srst => 0

end Sys2Proof.Machine
end

