-- ==== Sys2Proof/Machine/HostCommands.lean ====
section
/-! DEFINITION. The host commands `START` (R260, R261) and `SRST` (R263), and the start of a program of the
micro-operation port (R266). -/

namespace Sys2Proof.Machine

/-- What every start clears: STATUS and `OUT_LEN` (R260, R266), and the model's own observations of the run before. -/
def clearResult (s : State) : State :=
  { s with
    status := Status.clear
    outLen := 0
    prog := none
    casTainted := false
    trace := []
    errInfo := none }

/-- BAD_CONFIG at a start: no run, `BUSY` never set, OUT memory not touched (R305). -/
def rejectConfig (s : State) : State :=
  { clearResult s with status := { Status.clear with err := true, errcode := .badConfig, done := true } }

/-- The run start (R202, R260). -/
def beginRun (s : State) : State :=
  { clearResult s with
    status := { Status.clear with busy := true }
    wp := 44
    pos := 0
    eof := false
    cur := .unknown
    st := .scanning }

/-- The entry of `ExecProgram(prog)` (R266). "`BAUD` must be 1200 or 2400, as rule R261 requires": any other value is
rejected as START rejects it (DEDUCED: log 13). -/
def beginProgram (ws : List Word) (s : State) : State :=
  if (baudFactor s.baud).isSome then
    { clearResult s with
      status := { Status.clear with busy := true }
      wp := 44
      prog := some ws }
  else rejectConfig s

/-- `START` (R260). `Run()` is what the block's turns then do, one TPSM move at a time (R350; log 2). -/
def execStart (s : State) : Host.Outcome State Fault Refusal :=
  if s.status.busy then .next s
  else if configOk s then .next (beginRun s)
  else .next (rejectConfig s)

/-- `SRST` (R263). It aborts a TPSM run and a program of the micro-operation port alike; `BAUD`, `LEADIN_S`,
`CAS_LEN` and both memories keep their contents. The transient registers, unspecified after SRST (R40, U8), keep their
values (DESIGN CHOICE, unsafe: log 6). -/
def execSrst (s : State) : Host.Outcome State Fault Refusal :=
  .next { clearResult s with
    st := .idle
    pos := 0
    eof := false
    cur := .unknown
    wp := 44 }

end Sys2Proof.Machine
end

