-- ==== Sys2Proof/Machine/PulseSynth.lean ====
section
/-! DEFINITION. The pulse synthesizer (R140 to R149): the sine ROM, the phase accumulator, and `PULSE`. -/

namespace Sys2Proof.Machine

/-- `ROM36`, entries 0 to 35 (R142, the normative hex string). -/
def rom36 : List Byte :=
  [0x80, 0x96, 0xAB, 0xBF, 0xD1, 0xE1, 0xED, 0xF7, 0xFD, 0xFF, 0xFD, 0xF7,
   0xED, 0xE1, 0xD1, 0xBF, 0xAB, 0x96, 0x80, 0x6A, 0x55, 0x41, 0x2F, 0x1F,
   0x13, 0x09, 0x03, 0x01, 0x03, 0x09, 0x13, 0x1F, 0x2F, 0x41, 0x55, 0x6A]

/-- The ROM read at a phase; no pulse reads beyond entry 35 (R143). -/
def romAt (m : Nat) : Byte := rom36.getD m midline

/-- `inc <- (1 + T) × K; ph <- 0; pcnt <- 36 div inc` (R143). -/
def pulseStart (k : Nat) (t : Tone) (r : Transient) : Transient :=
  { r with
    inc := BitVec.ofNat 3 (phaseIncrement k t)
    ph := 0
    pcnt := BitVec.ofNat 6 (36 / phaseIncrement k t) }

/-- `ph <- ph + inc; pcnt <- pcnt - 1` (R143). -/
def pulseAdvance (r : Transient) : Transient :=
  { r with ph := r.ph + r.inc.setWidth 6, pcnt := r.pcnt - 1 }

/-- The loop of R143: `n` samples, each read at the phase register. -/
def pulseLoop : Nat → Transient → List Emission
  | 0, _ => []
  | n + 1, r => ⟨romAt r.ph.toNat, r⟩ :: pulseLoop n (pulseAdvance r)

/-- The `Emit`s of `Pulse(T)` under baud factor `k` (R143). -/
def pulseEmissions (k : Nat) (t : Tone) (r : Transient) : List Emission :=
  pulseLoop (36 / phaseIncrement k t) (pulseStart k t r)

/-- The transient registers after `Pulse(T)` (R143). -/
def pulseEnd (k : Nat) (t : Tone) (r : Transient) : Transient :=
  Nat.repeat pulseAdvance (36 / phaseIncrement k t) (pulseStart k t r)

/-- What needs the baud factor, where there is one. For any other `BAUD` "behaviour at baud rates other than 1200 and
2400" is a fault BAD_CONFIG (U17 of 93_implementation_defined.md; log 13). -/
def withBaudFactor (s : State) (run : Nat → State) : State :=
  match baudFactor s.baud with
  | some k => run k
  | none => raiseError .badConfig none s

/-- `PULSE T` (R144). -/
def execPulse (t : Tone) (s : State) : Host.Outcome State Fault Refusal :=
  .next (withBaudFactor s fun k => emitAll (pulseEmissions k t s.regs) (pulseEnd k t s.regs) s)

end Sys2Proof.Machine
end

