-- ==== Sys2Proof/Machine/LineEncoder.lean ====
section
/-! DEFINITION. The FSK line encoder (R160 to R166): `BYTE`. -/

namespace Sys2Proof.Machine

/-- The `Emit`s of data bit `i` of the byte in `sr`: a 1 is two SHORT pulses, a 0 is one LONG pulse (R162). -/
def bitEmissions (k i : Nat) (r : Transient) : List Emission :=
  let r1 := { r with bi := BitVec.ofNat 3 i }
  if r.sr.getLsbD i then pulseEmissions k .short r1 ++ pulseEmissions k .short r1 else pulseEmissions k .long r1

/-- The `Emit`s of `Byte(D)` (R160): the start symbol (R161), the data bits least significant first (R163), the stop
framing (R164). -/
def byteEmissions (k : Nat) (d : Byte) (r : Transient) : List Emission :=
  let r0 := { r with sr := d }
  pulseEmissions k .long r0
    ++ emissionLoop 8 (fun i => bitEmissions k i r0)
    ++ emissionLoop stopPulses (fun _ => pulseEmissions k .short { r0 with bi := 7 })

/-- The transient registers after `Byte(D)`: those its last pulse leaves (R160). -/
def byteEnd (k : Nat) (d : Byte) (r : Transient) : Transient :=
  pulseEnd k .short { r with sr := d, bi := 7 }

/-- `BYTE D` (R160). -/
def execByte (d : Byte) (s : State) : Host.Outcome State Fault Refusal :=
  .next (withBaudFactor s fun k => emitAll (byteEmissions k d s.regs) (byteEnd k d s.regs) s)

end Sys2Proof.Machine
end

