-- ==== Sys2Proof/Machine/SilenceHeader.lean ====
section
/-! DEFINITION. The silence and header emitter (R180 to R184): `SIL` and `HDR`. -/

namespace Sys2Proof.Machine

/-- The `Emit`s of `Sil(N)` (R180); `rem` counts down. -/
def silEmissions (n : Nat) (r : Transient) : List Emission :=
  emissionLoop n fun i => [⟨midline, { r with rem := BitVec.ofNat 28 (n - i) }⟩]

/-- `SIL N` (R180). `BAUD` has no effect on it. -/
def execSil (n : Nat) (s : State) : Host.Outcome State Fault Refusal :=
  .next (emitAll (silEmissions n s.regs) { s.regs with rem := 0 } s)

/-- The `Emit`s of `Hdr(P)` (R181): `P` complete SHORT pulses; `rem` counts down. -/
def hdrEmissions (k p : Nat) (r : Transient) : List Emission :=
  emissionLoop p fun i => pulseEmissions k .short { r with rem := BitVec.ofNat 28 (p - i) }

/-- The transient registers after `Hdr(P)` (R181). -/
def hdrEnd (k p : Nat) (r : Transient) : Transient :=
  if p = 0 then { r with rem := 0 } else { pulseEnd k .short r with rem := 0 }

/-- `HDR P` (R181). `P = 0` makes no pulse and so needs no baud factor. -/
def execHdr (p : Nat) (s : State) : Host.Outcome State Fault Refusal :=
  .next (if p = 0 then emitAll [] { s.regs with rem := 0 } s
    else withBaudFactor s fun k => emitAll (hdrEmissions k p s.regs) (hdrEnd k p s.regs) s)

end Sys2Proof.Machine
end

