-- ==== Sys2Proof/Machine/WavHeader.lean ====
section
/-! DEFINITION. The WAV header finaliser (R240 to R245): `FIN`. -/

namespace Sys2Proof.Machine

/-- `LE32(v)`: the least significant byte at the lowest address (R65, R243). -/
def le32 (v : Word) : List Byte :=
  [v.extractLsb' 0 8, v.extractLsb' 8 8, v.extractLsb' 16 8, v.extractLsb' 24 8]

/-- `LE16(v)` (R243). -/
def le16 (v : BitVec 16) : List Byte := [v.extractLsb' 0 8, v.extractLsb' 8 8]

/-- One row of the header layout: where the field stands and the bytes written there, in address order (R241). -/
structure HeaderField where
  offset : Nat
  bytes : List Byte
  deriving DecidableEq, Repr

/-- `HeaderFields(D)` (R241). Both size fields hold `D` (R242); the byte rate is D16's. -/
def headerFields (d : Word) : List HeaderField :=
  [⟨0, [0x52, 0x49, 0x46, 0x46]⟩,
   ⟨4, le32 d⟩,
   ⟨8, [0x57, 0x41, 0x56, 0x45]⟩,
   ⟨12, [0x66, 0x6D, 0x74, 0x20]⟩,
   ⟨16, le32 16⟩,
   ⟨20, le16 1⟩,
   ⟨22, le16 1⟩,
   ⟨24, le32 43200⟩,
   ⟨28, le32 43200⟩,
   ⟨32, le16 1⟩,
   ⟨34, le16 8⟩,
   ⟨36, [0x64, 0x61, 0x74, 0x61]⟩,
   ⟨40, le32 d⟩]

/-- The writes of the loop of R240, field by field. -/
def writeHeader (fs : List HeaderField) (m : Memory) : Memory :=
  fs.foldl (fun m f => m.writeRun f.offset f.bytes) m

/-- `FIN` (R240): the header over OUT addresses 0 to 43, and `OUT_LEN <- wp` (R244). It sets no flag; what ends the
run stands around it (R262, R266). -/
def execFin (s : State) : Host.Outcome State Fault Refusal :=
  .next { s with
    out := writeHeader (headerFields (s.wp - 44)) s.out
    outLen := s.wp }

end Sys2Proof.Machine
end

