-- ==== Sys2Proof/Machine/Dispatch.lean ====
section
/-! DEFINITION. One arm per instruction of the opcode table. -/

namespace Sys2Proof.Machine

def exec (i : Instr) (s : State) : Host.Outcome State Fault Refusal :=
  match i with
  | .sil n => Sys2Proof.Machine.execSil n s
  | .pulse t => Sys2Proof.Machine.execPulse t s
  | .hdr p => Sys2Proof.Machine.execHdr p s
  | .byte d => Sys2Proof.Machine.execByte d s
  | .fin => Sys2Proof.Machine.execFin s
  | .start => Sys2Proof.Machine.execStart s
  | .srst => Sys2Proof.Machine.execSrst s

end Sys2Proof.Machine
end

