-- ==== Sys2Proof/Machine/Flags.lean ====
section
/-! DEFINITION. The block's flags (R38): the STATUS word with its field places (R28), the numeric codes of its
fields (R23, R29), and the rules that set `mode`, `mode_valid` and `eof` (R209, R211). -/

namespace Sys2Proof.Machine

/-- The 2-bit code of a mode (R23). -/
def Mode.code : Mode → BitVec 2
  | .unknown => 0
  | .ascii => 1
  | .binary => 2
  | .basic => 3

/-- The mode of a 2-bit code (R23). -/
def Mode.ofCode (c : BitVec 2) : Mode :=
  if c = 0 then .unknown else if c = 1 then .ascii else if c = 2 then .binary else .basic

/-- The 3-bit code of an error (R29). -/
def ErrCode.code : ErrCode → BitVec 3
  | .none => 0
  | .truncatedBlock => 1
  | .outputOverflow => 2
  | .badConfig => 3
  | .illegalMop => 4

/-- The word of STATUS (R28): BUSY at 0, DONE at 1, ERR at 2, ERRCODE at 6:4, MODE at 9:8, MODE_VALID at 10; the
other bits read 0. -/
def Status.word (t : Status) : Word :=
  (0 : BitVec 21) ++ BitVec.ofBool t.modeValid ++ t.mode.code ++ (0 : BitVec 1) ++ t.errcode.code ++ (0 : BitVec 1)
    ++ BitVec.ofBool t.err ++ BitVec.ofBool t.done ++ BitVec.ofBool t.busy

/-- STATUS as a host may see it while BUSY when the recorded mode is not shown yet (R350). -/
def Status.hideMode (t : Status) : Status := { t with mode := .unknown, modeValid := false }

/-- The `done` output (R39). -/
def State.doneOutput (s : State) : Bool := s.status.done

/-- Recording the mode: only the first classification of a run does (R209). -/
def recordMode (t : Mode) (s : State) : State :=
  if s.status.modeValid then s else { s with status := { s.status with mode := t, modeValid := true } }

/-- `if b = 0x1A: eof <- 1` (R211). -/
def noteEof (b : Byte) (s : State) : State := if b = eofByte then { s with eof := true } else s

end Sys2Proof.Machine
end

