-- ==== Sys2Proof/Machine/Issue.lean ====
section
/-! DEFINITION. Handing an instruction to `exec`: what a turn of the machine has fetched, and `issue M` (R201). -/

namespace Sys2Proof.Machine

/-- What a turn comes to: an instruction to execute in a state, with what happens once it has completed; or an outcome
reached without one. -/
inductive Fetched where
  | run (i : Instr) (s : State) (after : State → State)
  | settled (o : Host.Outcome State Fault Refusal)

/-- The modulator's decoder receives a word: a legal one is executed, an illegal one raises ILLEGAL_MOP and writes
nothing (R98, R306). -/
def issueWord (w : Word) (s : State) (after : State → State) : Fetched :=
  match decodeMop w with
  | .ok i => .run i s after
  | .error _ => .settled (.next (raiseError .illegalMop (some (.word w)) s))

end Sys2Proof.Machine
end

