-- ==== Sys2Proof/Machine/HostPort.lean ====
section
/-! DEFINITION. What the host does to the block: the register port (R22 to R30, R41, R42), CAS memory (R60, R75), OUT
memory (R64, R72), and the micro-operation port (R266). -/

namespace Sys2Proof.Machine

/-- The field MODE of a STATUS read while the run's result may be any value (U7 of 93_implementation_defined.md): a
free mode where one was recorded (log 9). -/
def taintedMode (r : Status × State) : Status × State :=
  if r.2.casTainted && r.1.modeValid then
    let d := drawWord r.2
    ({ r.1 with mode := Mode.ofCode (d.1.extractLsb' 0 2) }, d.2)
  else r

/-- The fields of a STATUS read. While BUSY a recorded mode may show or not (R350, U12): a free choice (log 11). -/
def statusFields (s : State) : Status × State :=
  taintedMode <|
    if s.status.busy && s.status.modeValid then
      let d := drawBool s
      (if d.1 then s.status else s.status.hideMode, d.2)
    else (s.status, s)

/-- A read of `OUT_LEN` (R30); of a run whose CAS memory was written it may be any value once DONE (U7; log 9). -/
def outLenRead (s : State) : Word × State :=
  if s.casTainted && s.status.done then drawWord s else (s.outLen, s)

/-- A register read by offset (R22); reserved offsets read 0 (R41). -/
def readRegister (offset : Nat) (s : State) : Word × State :=
  if offset = 0x04 then
    let r := statusFields s
    (r.1.word, r.2)
  else if offset = 0x08 then (s.baud, s)
  else if offset = 0x0C then (s.leadinS, s)
  else if offset = 0x10 then (s.casLen, s)
  else if offset = 0x14 then outLenRead s
  else if offset = 0x18 then (s.cfg.outCap, s)
  else (0, s)

/-- A register write by offset, CTRL apart (R24 to R26): the configuration registers, unless BUSY (R42); every other
offset ignores it (R41). -/
def writeRegister (offset : Nat) (v : Word) (s : State) : State :=
  if s.status.busy then s
  else if offset = 0x08 then { s with baud := v }
  else if offset = 0x0C then { s with leadinS := v }
  else if offset = 0x10 then { s with casLen := v }
  else s

/-- The accesses the register port supports: aligned words at offsets 0x00 to 0xFC (R41). -/
def portAccessOk (w : Width) (offset : Nat) : Bool :=
  decide (w = .word) && decide (offset % 4 = 0) && decide (offset < 256)

/-- Where OUT memory has a defined value for the host (R64, R72, R345): after a run that ended without an error, at the
addresses that run wrote (log 10). -/
def outDefined (s : State) (a : Nat) : Bool :=
  s.status.done && !s.status.err && !s.casTainted &&
    ((decide (44 ≤ a) && decide (a < s.wp.toNat)) || (decide (a < 44) && decide (s.outLen ≠ 0)))

/-- A host read of an OUT byte: the stored byte where it is defined, a free byte elsewhere (R64, R72). -/
def outRead (a : Nat) (s : State) : Byte × State :=
  if outDefined s a then
    match s.out.read a with
    | some b => (b, s)
    | none => drawByte s
  else drawByte s

/-- A host access (R60, R314). A CAS write while BUSY taints the run in progress (R75; log 9), a program of the
micro-operation port as well (DESIGN CHOICE: log 23). -/
def hostAccess (op : HostOp) (s : State) : Fetched :=
  match op with
  | .readReg w offset =>
    if portAccessOk w offset then
      let r := readRegister offset s
      .settled (.next { r.2 with readData := r.1 })
    else .settled (.refused (.portAccess w offset))
  | .writeReg w offset v =>
    if portAccessOk w offset then
      if offset = 0 then
        match decodeCtrl v with
        | .ok i => .run i s id
        | .error _ => .settled (.next s)
      else .settled (.next (writeRegister offset v s))
    else .settled (.refused (.portAccess w offset))
  | .writeCas a b =>
    if a.toNat < s.cfg.casCap.toNat then
      .settled (.next { s with
        cas := s.cas.write a.toNat b
        casTainted := s.casTainted || s.status.busy })
    else .settled (.fault (.casAddress a))
  | .readOut a =>
    if a.toNat < s.cfg.outCap.toNat then
      let r := outRead a.toNat s
      .settled (.next { r.2 with readData := r.1.setWidth 32 })
    else .settled (.fault (.outAddress a))
  | .drive ws =>
    if s.status.busy then .settled (.refused .microOpPortBusy)
    else .settled (.next (beginProgram ws s))
  | .powerOn => .settled (.next (powerOnReset s))

end Sys2Proof.Machine
end

