-- ==== Sys2Proof/Machine/Tpsm.lean ====
section
/-! DEFINITION. The tape protocol state machine (R200 to R216), one move at a time. -/

namespace Sys2Proof.Machine

/-- `Classify` of the 10-byte window (R208). -/
def classify (w : List Byte) : Mode :=
  if w = typeAscii then .ascii
  else if w = typeBin then .binary
  else if w = typeBasic then .basic
  else .unknown

/-- A marker stands at `pos`: it is consumed (R206), the window behind it checked (R207), and the block classified,
recorded and dispatched (R208, R209, R204). -/
def dispatchBlock (s : State) : State :=
  let s1 := { s with pos := s.pos + 8 }
  if bytesLeft s1 < 10 then
    raiseError .truncatedBlock (some (.marker (s1.pos - 8))) s1
  else
    let r := casWindow 10 s1.pos.toNat s1
    { recordMode (classify r.1) r.2 with
      st := .dispatching
      cur := classify r.1
      stage := .silence
      further := false }

/-- One pass of the loop of `Scan()` (R205). -/
def scanMove (s : State) : State :=
  if bytesLeft s < 8 then { s with st := .done }
  else
    let r := casWindow 8 s.pos.toNat s
    if r.1 = syncMarker then dispatchBlock r.2 else { r.2 with pos := r.2.pos + 1 }

/-- `issue M` (R201): the word joins the run's trace and goes to the modulator; what the TPSM does next happens only
if the word raised no error, which would have left `st = IDLE` (R304). -/
def issueFromTpsm (i : Instr) (s : State) (after : State → State) : Fetched :=
  issueWord (encode i) { s with trace := s.trace ++ [encode i] } fun t => if t.st = .idle then t else after t

/-- The per-byte phase of `Data()` after its byte's word: the EOF test, and the cursor (R210, R211). -/
def afterByte (s : State) : State :=
  let r := casRead s.pos.toNat s
  { noteEof r.1 r.2 with pos := s.pos + 1 }

/-- The policy is complete: back to Scanning (R215). -/
def backToScanning (s : State) : State := { s with st := .scanning }

/-- A further chunk begins at a cursor: its silence comes next. -/
def nextChunk (p : Word) (s : State) : State := { s with pos := p, stage := .silence, further := true }

/-- The second half of the Binary and Basic policy, after a chunk (R214): an unconditional skip, clamped. -/
def afterBinBasicChunk (s : State) : State :=
  if s.further then backToScanning s
  else nextChunk (BitVec.ofNat 32 (min (s.pos.toNat + 8) s.casLen.toNat)) s

/-- What a policy does when `Data()` has returned (R212 to R214). -/
def afterChunk (s : State) : State :=
  match s.cur with
  | .unknown => backToScanning s
  | .ascii =>
    if s.eof = false ∧ s.pos.toNat < s.casLen.toNat then nextChunk (s.pos + 8) s else backToScanning s
  | .binary => afterBinBasicChunk s
  | .basic => afterBinBasicChunk s

/-- One move of the per-byte phase of `Data()` (R210). -/
def bytesMove (s : State) : Fetched :=
  if 8 ≤ bytesLeft s then
    let r := casWindow 8 s.pos.toNat s
    if r.1 = syncMarker then .settled (.next { r.2 with stage := .chunkEnd })
    else
      let q := casRead s.pos.toNat r.2
      issueFromTpsm (.byte q.1) q.2 afterByte
  else .settled (.next { s with stage := .tail s.pos })

/-- One move of the tail phase of `Data()`, and its EOF test at the end (R210, R211). -/
def tailMove (t0 : Word) (s : State) : Fetched :=
  if s.pos.toNat < s.casLen.toNat then
    let q := casRead s.pos.toNat s
    issueFromTpsm (.byte q.1) q.2 fun t => { t with pos := t.pos + 1 }
  else if 0 < s.casLen.toNat - t0.toNat then
    let q := casRead t0.toNat s
    .settled (.next { noteEof q.1 q.2 with stage := .chunkEnd })
  else .settled (.next { s with stage := .chunkEnd })

/-- One move of the policy of `cur` (R212 to R214). `Data()` clears `eof` when it is entered (R210). -/
def policyMove (s : State) : Fetched :=
  match s.stage with
  | .silence => issueFromTpsm (.sil (chunkSilence s)) s fun t => { t with stage := .header }
  | .header => issueFromTpsm (.hdr (chunkHeader s)) s fun t => { t with stage := .bytes, eof := false }
  | .bytes => bytesMove s
  | .tail t0 => tailMove t0 s
  | .chunkEnd => .settled (.next (afterChunk s))

/-- One move of the TPSM (R200). In IDLE the block waits. -/
def tpsmMove (s : State) : Fetched :=
  match s.st with
  | .idle => .settled (.next s)
  | .scanning => .settled (.next (scanMove s))
  | .dispatching => policyMove s
  | .done => issueFromTpsm .fin s endRun

end Sys2Proof.Machine
end

