-- ==== Sys2Proof/Machine/Fetch.lean ====
section
/-! DEFINITION. Whose turn it is and what that turn fetches: a host access, a word of the micro-operation port
(R266), or a TPSM move (R200). -/

namespace Sys2Proof.Machine

/-- What `ExecProgram` does after a word: FIN ends the program (R266). -/
def afterPortWord (i : Instr) (s : State) : State :=
  match i with
  | .sil _ => s
  | .pulse _ => s
  | .hdr _ => s
  | .byte _ => s
  | .fin => endRun s
  | .start => s
  | .srst => s

/-- One pass of the loop of `ExecProgram` (R266); a list that ends without FIN ends the run. -/
def portMove (ws : List Word) (s : State) : Fetched :=
  match ws with
  | [] => .settled (.next (endRun s))
  | w :: rest =>
    match decodeMop w with
    | .ok i => .run i { s with prog := some rest } (afterPortWord i)
    | .error _ => .settled (.next (raiseError .illegalMop (some (.word w)) s))

/-- A turn of the block: the program of the micro-operation port where one runs, else the TPSM (R266, R200). -/
def blockMove (s : State) : Fetched :=
  match s.prog with
  | some ws => portMove ws s
  | none => tpsmMove s

/-- The next turn: the schedule says whose it is; where it says nothing the block moves (log 3). -/
def fetch (s : State) : Fetched :=
  match s.schedule with
  | [] => blockMove s
  | .block :: rest => blockMove { s with schedule := rest }
  | .host op :: rest => hostAccess op { s with schedule := rest }

/-- Place a table word where the next turn fetches it: a legal micro-operation word at the head of the micro-operation
port's program, which is then running; any other word that is a CTRL command as a host write to CTRL; a word that is
neither, which `decodeTableWord` answers `none` for, at the head of the port's program too, where the next turn raises
ILLEGAL_MOP for it (DESIGN CHOICE: log 4, log 5). -/
def placeWord (w : Word) (s : State) : State :=
  match decodeMop w, decodeCtrl w with
  | .ok _, _ => { s with
      status := { s.status with busy := true }
      prog := some (w :: s.prog.getD [])
      schedule := .block :: s.schedule }
  | .error _, .ok _ => { s with schedule := .host (.writeReg .word 0 w) :: s.schedule }
  | .error _, .error _ => { s with
      status := { s.status with busy := true }
      prog := some (w :: s.prog.getD [])
      schedule := .block :: s.schedule }

end Sys2Proof.Machine
end

