-- ==== Sys2Proof/Machine/Step.lean ====
section
/-! DEFINITION. One step of the machine: fetch a turn, execute its instruction if it has one. -/

namespace Sys2Proof.Machine

/-- One turn of the host or of the block (R350; log 2, log 3). -/
def step (s : State) : Host.Outcome State Fault Refusal :=
  match fetch s with
  | .run i t after =>
    match exec i t with
    | .next u => .next (after u)
    | .fault r => .fault r
    | .refused r => .refused r
  | .settled o => o

/-- `s` with a table word placed where `step` fetches its next instruction (log 4). -/
def State.withFetchWord (s : State) (nbits w : Nat) : State :=
  placeWord (BitVec.ofNat 32 (w % 2 ^ nbits)) s

end Sys2Proof.Machine
end

