-- ==== Sys2Proof/Machine/Samples.lean ====
section
/-! DEFINITION. The samples of each micro-operation in closed form, as the rules describe the waveform; the meanings
run the phase accumulator, and Laws/Samples.lean says that the two agree. -/

namespace Sys2Proof.Machine

/-- "The pulse emits `L = 36 div inc` samples, and sample `n` is `ROM36[n × inc]`" (R143). -/
def pulseSamples (k : Nat) (t : Tone) : List Byte :=
  (List.range (pulseLength k t)).map fun n => romAt (n * phaseIncrement k t)

/-- A data-bit symbol: two SHORT pulses for a 1, one LONG pulse for a 0 (R162). -/
def bitSamples (k : Nat) (b : Bool) : List Byte :=
  if b then pulseSamples k .short ++ pulseSamples k .short else pulseSamples k .long

/-- The samples of `BYTE D` (R160 to R164). -/
def byteSamples (k : Nat) (d : Byte) : List Byte :=
  pulseSamples k .long ++ (List.range 8).flatMap (fun i => bitSamples k (d.getLsbD i))
    ++ (List.replicate stopPulses (pulseSamples k .short)).flatten

/-- The samples of a micro-operation under baud factor `k` (R143, R160, R180, R181); FIN emits none (R225), and a host
command is no micro-operation. -/
def microSamples (k : Nat) : Instr → List Byte
  | .sil n => List.replicate n midline
  | .pulse t => pulseSamples k t
  | .hdr p => (List.replicate p (pulseSamples k .short)).flatten
  | .byte d => byteSamples k d
  | .fin => []
  | .start => []
  | .srst => []

end Sys2Proof.Machine
end

