-- ==== Sys2Proof/Machine/Assembler.lean ====
section
/-! DEFINITION. The assembler forms and pseudo-instructions of R102 and R103: lines, the instructions they stand for,
and the reading of a line's characters. -/

namespace Sys2Proof.Machine

/-- A line of R102, or a pseudo-instruction of R103; operands are numbers as written. -/
inductive AsmLine where
  | sil (n : Nat)
  | pulse (t : Tone)
  | hdr (p : Nat)
  | byte (d : Nat)
  | fin
  | bit0
  | bit1
  | stopf
  | sil1s
  | sil2s
  | sils (s : Nat)
  | lhdr
  | shdr
  deriving DecidableEq, Repr

/-- The instructions of a line at baud factor `k`; `none` where "it spells no word" (R102, R103). -/
def assemble (k : Nat) : AsmLine → Option (List Instr)
  | .sil n => if n < 2 ^ 28 then some [.sil n] else none
  | .pulse t => some [.pulse t]
  | .hdr p => if p < 2 ^ 28 then some [.hdr p] else none
  | .byte d => if d < 256 then some [.byte (BitVec.ofNat 8 d)] else none
  | .fin => some [.fin]
  | .bit0 => some [.pulse .long]
  | .bit1 => some [.pulse .short, .pulse .short]
  | .stopf => some (List.replicate stopPulses (.pulse .short))
  | .sil1s => some [.sil silence1s]
  | .sil2s => some [.sil silence2s]
  | .sils s => if 1 ≤ s ∧ s ≤ 6213 then some [.sil (s * sampleRate)] else none
  | .lhdr => some [.hdr (longHeader * k)]
  | .shdr => some [.hdr (shortHeader * k)]

/-- The words of a line (R102). -/
def assembleWords (k : Nat) (l : AsmLine) : Option (List Word) := (assemble k l).map fun is => is.map encode

/-- The pulses of one data bit: `BIT0` or `BIT1` (R103). -/
def bitInstrs (b : Bool) : List Instr := if b then [.pulse .short, .pulse .short] else [.pulse .long]

/-- The sequence that has the effect of `BYTE D`: `PULSE LONG`, the bits least significant first, `STOPF` (R166). -/
def byteExpansion (d : Byte) : List Instr :=
  [.pulse .long] ++ (List.range 8).flatMap (fun i => bitInstrs (d.getLsbD i))
    ++ List.replicate stopPulses (.pulse .short)

/-- A digit's value, hexadecimal digits in either case. -/
def digitValue (c : Char) : Option Nat :=
  if '0' ≤ c ∧ c ≤ '9' then some (c.toNat - 48)
  else if 'A' ≤ c ∧ c ≤ 'F' then some (c.toNat - 55)
  else if 'a' ≤ c ∧ c ≤ 'f' then some (c.toNat - 87)
  else none

/-- A number in a base, most significant digit first. -/
def readDigits (base acc : Nat) : List Char → Option Nat
  | [] => some acc
  | c :: cs =>
    match digitValue c with
    | some v => if v < base then readDigits base (acc * base + v) cs else none
    | none => none

/-- "Numbers are decimal, or hexadecimal with `0x`" (R102). -/
def readNumber : List Char → Option Nat
  | '0' :: 'x' :: c :: cs => readDigits 16 0 (c :: cs)
  | c :: cs => readDigits 10 0 (c :: cs)
  | [] => none

/-- "A `;` begins a comment that runs to the end of the line" (R102). Blanks before it, and blanks at
the end of a line that has no comment, are dropped as well (DESIGN CHOICE: log 21). -/
def stripComment (cs : List Char) : List Char :=
  ((cs.takeWhile fun c => c != ';').reverse.dropWhile fun c => c == ' ').reverse

/-- The operand of `PULSE` (R102): the four forms of the table as they stand there. Another spelling of the bit, such as
`0x1`, is refused (DESIGN CHOICE: log 21). -/
def readTone (cs : List Char) : Option Tone :=
  if cs = ['L', 'O', 'N', 'G'] ∨ cs = ['0'] then some .long
  else if cs = ['S', 'H', 'O', 'R', 'T'] ∨ cs = ['1'] then some .short
  else none

/-- One line: "a mnemonic, one blank, then an operand" (R102); the forms without an operand have the mnemonic alone. -/
def readLine (line : List Char) : Option AsmLine :=
  let cs := stripComment line
  let m := cs.takeWhile fun c => c != ' '
  match cs.drop m.length with
  | [] =>
    if m = ['F', 'I', 'N'] then some .fin
    else if m = ['B', 'I', 'T', '0'] then some .bit0
    else if m = ['B', 'I', 'T', '1'] then some .bit1
    else if m = ['S', 'T', 'O', 'P', 'F'] then some .stopf
    else if m = ['S', 'I', 'L', '1', 'S'] then some .sil1s
    else if m = ['S', 'I', 'L', '2', 'S'] then some .sil2s
    else if m = ['L', 'H', 'D', 'R'] then some .lhdr
    else if m = ['S', 'H', 'D', 'R'] then some .shdr
    else none
  | _ :: operand =>
    if m = ['S', 'I', 'L'] then (readNumber operand).map .sil
    else if m = ['P', 'U', 'L', 'S', 'E'] then (readTone operand).map .pulse
    else if m = ['H', 'D', 'R'] then (readNumber operand).map .hdr
    else if m = ['B', 'Y', 'T', 'E'] then (readNumber operand).map .byte
    else if m = ['S', 'I', 'L', 'S'] then (readNumber operand).map .sils
    else none

end Sys2Proof.Machine
end

