-- ==== Sys2Proof/Safety.lean ====
section
/-! DEFINITION. What counts as a good state and what a run shows: the invariant the spec's prose gives the machine,
the host's view of a finished run (R264), and runs of several steps or instructions. -/

namespace Sys2Proof.Machine

/-- `n` bytes of the CAS stream, as the block reads them while the host keeps its duty of R75. -/
def casBytes (s : State) (a n : Nat) : List Byte := (List.range n).map fun i => casByte s (a + i)

/-- What the rules promise of every state the machine is in between two turns. -/
structure State.Inv (s : State) : Prop where
  /-- R8: the parameters obey their constraint. -/
  legal : s.cfg.legal
  /-- the CAS memory is in its canonical form. -/
  casForm : s.cas.wf
  /-- the OUT memory is in its canonical form. -/
  outForm : s.out.wf
  /-- R60: CAS memory has `CAS_CAP` bytes. -/
  casInside : ∀ c ∈ s.cas, c.1 < s.cfg.casCap.toNat
  /-- R78: every OUT write has an address below `OUT_CAP`. -/
  outInside : ∀ c ∈ s.out, c.1 < s.cfg.outCap.toNat
  /-- R32, R266: `BUSY` is 1 exactly while a TPSM run or a program of the micro-operation port is in progress (DEDUCED: log 18). -/
  busyIff : s.status.busy = true ↔ (s.st ≠ .idle ∨ s.prog ≠ none)
  /-- R266: a program stands in place of the TPSM. -/
  oneRun : s.st ≠ .idle → s.prog = none
  /-- R28: a run that has ended is not in progress. -/
  doneIdle : s.status.done = true → s.status.busy = false
  /-- R304, R305: an error ends the run. -/
  errDone : s.status.err = true → s.status.done = true
  /-- R28: `ERRCODE` is 0 exactly when `ERR` is 0. -/
  errCoded : s.status.errcode = .none ↔ s.status.err = false
  /-- R28: `MODE` is 0 when `MODE_VALID` is 0. -/
  modeUnset : s.status.modeValid = false → s.status.mode = .unknown
  /-- R35: `44 <= wp <= OUT_CAP`. -/
  wpLow : 44 ≤ s.wp.toNat
  wpHigh : s.wp.toNat ≤ s.cfg.outCap.toNat
  /-- R30, R244: `OUT_LEN` is 0, or the length of a run that ended without an error. -/
  lengthOf : s.outLen = 0 ∨ (s.status.done = true ∧ s.status.err = false ∧ s.outLen = s.wp)
  /-- R125, R124: every address below `wp` in the sample region holds a sample, and no sample is 0. -/
  samples : ∀ a, 44 ≤ a → a < s.wp.toNat → ∃ b, s.out.read a = some b ∧ b ≠ 0
  /-- R240: where there is a length there is a header. -/
  header : s.outLen ≠ 0 → ∀ a, a < 44 → (s.out.read a).isSome = true
  /-- R261, R42: a TPSM run has a legal configuration throughout. -/
  config : s.st ≠ .idle → configOk s = true
  /-- R266: so has a program, as far as `BAUD` goes. -/
  portBaud : s.prog ≠ none → (baudFactor s.baud).isSome = true
  /-- R219: the cursor never passes the end of the stream. -/
  cursor : s.st ≠ .idle → s.pos.toNat ≤ s.casLen.toNat
  /-- R209: a block being dispatched has its mode recorded. -/
  recorded : s.st = .dispatching → s.status.modeValid = true
  /-- R205: the scan ends with fewer than 8 bytes left. -/
  scanEnd : s.st = .done → bytesLeft s < 8
  /-- R210: the tail phase has fewer than 8 bytes, and begins at or before the cursor. -/
  tailShort : ∀ t0, s.st = .dispatching → s.stage = .tail t0 →
    t0.toNat ≤ s.pos.toNat ∧ s.casLen.toNat - t0.toNat < 8
  /-- R217: a chunk ends at the stream's end, or at a marker with its 8 bytes left. Once the host has written CAS memory
  during the run (R75) the bytes the block read need not be those that stand there. -/
  chunkEnds : s.st = .dispatching → s.stage = .chunkEnd →
    s.pos = s.casLen ∨ (8 ≤ bytesLeft s ∧ (s.casTainted = false → casBytes s s.pos.toNat 8 = syncMarker))

/-- `k` turns of the machine. -/
def State.after (s : State) (k : Nat) : Host.Outcome State Fault Refusal := Host.Core.run Sys2Proof.core k s

/-- Executing instructions one after another, outside any run. -/
def execSeq : List Instr → State → Host.Outcome State Fault Refusal
  | [], s => .next s
  | i :: is, s =>
    match exec i s with
    | .next t => execSeq is t
    | .fault r => .fault r
    | .refused r => .refused r

/-- What becomes of an instruction's outcome when something follows its completion. -/
def thenDo (o : Host.Outcome State Fault Refusal) (k : State → State) : Host.Outcome State Fault Refusal :=
  match o with
  | .next t => .next (k t)
  | .fault r => .fault r
  | .refused r => .refused r

/-- What follows a word the TPSM issued: the TPSM goes on, unless the word raised an error (R201, R304). -/
def tpsmThen (k : State → State) (t : State) : State := if t.st = .idle then t else k t

/-- The TPSM is to move: no host access is due and no program stands at the micro-operation port. -/
def State.tpsmTurn (s : State) : Prop := s.schedule = [] ∧ s.prog = none

/-- The next turn is the block's: the schedule says so, or says nothing (log 3). -/
def State.blockTurn (s : State) : Prop := s.schedule = [] ∨ ∃ rest, s.schedule = .block :: rest

/-- The micro-operations of a list of words; an illegal word stands for none. -/
def microOps (ws : List Word) : List Instr :=
  ws.filterMap fun w =>
    match decodeMop w with
    | .ok i => some i
    | .error _ => none

/-- The host's view of a finished run (R264): STATUS, `OUT_LEN`, and the bytes `OUT[0 .. OUT_LEN-1]`. -/
def hostView (s : State) : Word × Word × List (Option Byte) :=
  (s.status.word, s.outLen, (List.range s.outLen.toNat).map s.out.read)

/-- The block is at rest and the host does nothing: no run, no program, no scheduled access. -/
def State.quiet (s : State) : Prop :=
  s.st = .idle ∧ s.prog = none ∧ s.status.busy = false ∧ s.schedule = []

end Sys2Proof.Machine
end

