-- ==== Sys2Proof/Certificates/Slice0/Obligations.lean ====
section
/-! DEFINITION. The statements for the provers, from the numbered rules of the spec. -/

open Sys2Proof Sys2Proof.Machine

/-! ## Encoding -/

/-- A few words written out from R93 to R97 and R101 decode to what they stand for. -/
def Obligations.SampleWordsDecode : Prop :=
  decodeMop 0x1000A8C0 = .ok (.sil 43200) ∧ decodeMop 0x1FFFFFFF = .ok (.sil 268435455) ∧
  decodeMop 0x20000000 = .ok (.pulse .long) ∧ decodeMop 0x20000001 = .ok (.pulse .short) ∧
  decodeMop 0x30003E80 = .ok (.hdr 16000) ∧ decodeMop 0x4000001A = .ok (.byte 0x1A) ∧
  decodeMop 0x50000000 = .ok .fin ∧ decodeCtrl 0x00000001 = .ok .start ∧ decodeCtrl 0x00000003 = .ok .srst

/-- Decode and encode agree on every well-formed instruction, and every legal micro-operation word is the encoding of
the one instruction it decodes to. -/
def Obligations.DecodeEncodeAgree : Prop :=
  (∀ i : Instr, WellFormed i = true →
    (i.isMicroOp = true → decodeMop (encode i) = .ok i) ∧
    (i.isMicroOp = false → decodeCtrl (encode i) = .ok i)) ∧
  (∀ (w : Word) (i : Instr), decodeMop w = .ok i →
    WellFormed i = true ∧ i.isMicroOp = true ∧ encode i = w)

/-- The illegal words are those of R98, by the numbers of their fields. -/
def Obligations.IllegalWordsByFields : Prop :=
  ∀ w : Word, (∃ e, decodeMop w = .error e) ↔
    (w.toNat / 2 ^ 28 = 0 ∨ 6 ≤ w.toNat / 2 ^ 28) ∨
    (w.toNat / 2 ^ 28 = 2 ∧ w.toNat % 2 ^ 28 / 2 ≠ 0) ∨
    (w.toNat / 2 ^ 28 = 4 ∧ w.toNat % 2 ^ 28 / 2 ^ 8 ≠ 0) ∨
    (w.toNat / 2 ^ 28 = 5 ∧ w.toNat % 2 ^ 28 ≠ 0)

/-- The CTRL write word (R101): by its low two bits alone, and no micro-operation word is a host command. -/
def Obligations.CtrlWordByLowBits : Prop :=
  (∀ c : Word,
    (2 ≤ c.toNat % 4 → decodeCtrl c = .ok .srst) ∧
    (c.toNat % 4 = 1 → decodeCtrl c = .ok .start) ∧
    (c.toNat % 4 = 0 → decodeCtrl c = .error .noCommand)) ∧
  (∀ (w : Word) (i : Instr), decodeMop w = .ok i → i ≠ .start ∧ i ≠ .srst)

/-! ## The micro-operations -/

/-- `Emit(v)` (R122). `errInfo` is the model's observation (log 16). -/
def Obligations.EmitAppendsOrOverflows : Prop :=
  ∀ (v : Byte) (s : State),
    (s.wp.toNat < s.cfg.outCap.toNat →
      ∃ t, emit v s = .ok t ∧ t = { s with out := t.out, wp := t.wp } ∧ t.wp.toNat = s.wp.toNat + 1 ∧
        ∀ a, t.out.read a = if a = s.wp.toNat then some v else s.out.read a) ∧
    (s.cfg.outCap.toNat ≤ s.wp.toNat →
      ∃ t, emit v s = .error t ∧ t.out = s.out ∧ t.wp = s.wp ∧ t.errInfo = some (.writePointer s.wp) ∧
        t.status = { s.status with busy := false, err := true, errcode := .outputOverflow, done := true })

/-- A micro-operation's samples stored in one pass are `Emit`s one after another (R120, R125, R126): no sample, no store;
the first sample is `Emit` of it, and the rest follows unless that raised. So a longer list does what its first part
does and then the rest, unless the first part ended the run. The transient registers at each sample are the model's
(log 6). -/
def Obligations.EmissionsCompose : Prop :=
  (∀ (fin : Transient) (s : State), emitAll [] fin s = { s with regs := fin }) ∧
  (∀ (e : Emission) (es : List Emission) (fin : Transient) (s : State),
    emitAll (e :: es) fin s =
      match emit e.value { s with regs := e.regs } with
      | .ok t => emitAll es fin t
      | .error t => t) ∧
  ∀ (es fs : List Emission) (fin : Transient) (s : State),
    (s.wp.toNat + es.length ≤ s.cfg.outCap.toNat →
      emitAll (es ++ fs) fin s = emitAll fs fin (emitAll es fin s)) ∧
    (s.wp.toNat ≤ s.cfg.outCap.toNat → s.cfg.outCap.toNat < s.wp.toNat + es.length →
      emitAll (es ++ fs) fin s = emitAll es fin s)

/-- `SIL N` where its samples fit (R180): `N` midline samples at `wp` onward, at any `BAUD`, and nothing else. -/
def Obligations.SilStoresMidlineSamples : Prop :=
  ∀ (n : Nat) (s : State), s.wp.toNat + n ≤ s.cfg.outCap.toNat →
    ∃ t, exec (.sil n) s = .next t ∧ t = { s with out := t.out, wp := t.wp, regs := t.regs } ∧
      t.wp.toNat = s.wp.toNat + n ∧
      ∀ a, t.out.read a = if s.wp.toNat ≤ a ∧ a < s.wp.toNat + n then some 0x80 else s.out.read a

/-- `PULSE T` where its samples fit (R141, R143, R144): sample `n` is `ROM36[n × inc]`, with the lengths and increments
of the table of R141. -/
def Obligations.PulseStoresOneCycle : Prop :=
  ∀ (t : Tone) (s : State) (l inc : Nat),
    (s.baud = 1200 ∧ t = .long ∧ l = 36 ∧ inc = 1) ∨ (s.baud = 1200 ∧ t = .short ∧ l = 18 ∧ inc = 2) ∨
      (s.baud = 2400 ∧ t = .long ∧ l = 18 ∧ inc = 2) ∨ (s.baud = 2400 ∧ t = .short ∧ l = 9 ∧ inc = 4) →
    s.wp.toNat + l ≤ s.cfg.outCap.toNat →
    ∃ u, exec (.pulse t) s = .next u ∧ u = { s with out := u.out, wp := u.wp, regs := u.regs } ∧
      u.wp.toNat = s.wp.toNat + l ∧
      ∀ a, u.out.read a =
        if s.wp.toNat ≤ a ∧ a < s.wp.toNat + l then rom36[(a - s.wp.toNat) * inc]? else s.out.read a

/-- `HDR P` where its samples fit (R181): `P` complete SHORT pulses, 18 samples each at 1200 baud and 9 at 2400. -/
def Obligations.HdrStoresShortPulses : Prop :=
  ∀ (p : Nat) (s : State) (l inc : Nat),
    (s.baud = 1200 ∧ l = 18 ∧ inc = 2) ∨ (s.baud = 2400 ∧ l = 9 ∧ inc = 4) →
    s.wp.toNat + p * l ≤ s.cfg.outCap.toNat →
    ∃ u, exec (.hdr p) s = .next u ∧ u = { s with out := u.out, wp := u.wp, regs := u.regs } ∧
      u.wp.toNat = s.wp.toNat + p * l ∧
      ∀ a, u.out.read a =
        if s.wp.toNat ≤ a ∧ a < s.wp.toNat + p * l then rom36[(a - s.wp.toNat) % l * inc]? else s.out.read a

/-- `BYTE D` where its samples fit (R160 to R165): the start symbol, the eight data bits least significant first, the
stop framing, `396 div K` samples in all. Every symbol takes `36 div K` samples: symbol 0 is a LONG pulse, symbol
`1 + j` is data bit `j` (two SHORT pulses for a 1, one LONG pulse for a 0), symbols 9 and 10 are two SHORT pulses. -/
def Obligations.ByteStoresLineCode : Prop :=
  ∀ (d : Byte) (s : State) (k : Nat), (s.baud = 1200 ∧ k = 1) ∨ (s.baud = 2400 ∧ k = 2) →
    s.wp.toNat + 396 / k ≤ s.cfg.outCap.toNat →
    ∃ u, exec (.byte d) s = .next u ∧ u = { s with out := u.out, wp := u.wp, regs := u.regs } ∧
      u.wp.toNat = s.wp.toNat + 396 / k ∧
      (∀ a, ¬ (s.wp.toNat ≤ a ∧ a < s.wp.toNat + 396 / k) → u.out.read a = s.out.read a) ∧
      ∀ j n, j < 11 → n < 36 / k →
        u.out.read (s.wp.toNat + j * (36 / k) + n) =
          if 9 ≤ j ∨ (1 ≤ j ∧ d.getLsbD (j - 1) = true) then rom36[n % (18 / k) * (2 * k)]? else rom36[n * k]?

/-- The four sample-writing micro-operations where their samples do not fit (R126, R303, R304): the samples up to
`OUT_CAP - 1` are stored, OUTPUT_OVERFLOW is recorded, and the run is over. `errInfo` is the model's observation
(log 16). -/
def Obligations.OverflowStopsAtCapacity : Prop :=
  ∀ (i : Instr) (k : Nat) (s : State), baudFactor s.baud = some k ∨ (∃ n, i = .sil n) →
    (∃ n, i = .sil n) ∨ (∃ t, i = .pulse t) ∨ (∃ p, i = .hdr p) ∨ (∃ d, i = .byte d) →
    s.wp.toNat ≤ s.cfg.outCap.toNat → s.cfg.outCap.toNat < s.wp.toNat + sampleCount k i →
    ∃ t, exec i s = .next t ∧
      t = { s with
        out := t.out
        wp := s.cfg.outCap
        regs := t.regs
        st := .idle
        prog := none
        outLen := 0
        status := { s.status with busy := false, done := true, err := true, errcode := .outputOverflow }
        errInfo := some (.writePointer s.cfg.outCap) } ∧
      ∀ a, t.out.read a =
        if s.wp.toNat ≤ a ∧ a < s.cfg.outCap.toNat then (microSamples k i)[a - s.wp.toNat]? else s.out.read a

/-- A micro-operation that needs pulses, at a `BAUD` that is neither 1200 nor 2400 (U17, R266; the model's choice of how
the error is taken is log 13): BAD_CONFIG, no sample, and the run is over. `errInfo` is the model's observation
(log 16). -/
def Obligations.PulsesNeedLegalBaud : Prop :=
  ∀ (i : Instr) (s : State), s.baud ≠ 1200 → s.baud ≠ 2400 →
    (∃ t, i = .pulse t) ∨ (∃ p, p ≠ 0 ∧ i = .hdr p) ∨ (∃ d, i = .byte d) →
    exec i s = .next { s with
      st := .idle
      prog := none
      outLen := 0
      status := { s.status with busy := false, done := true, err := true, errcode := .badConfig }
      errInfo := none }

/-- The expansion law (R166): `BYTE D` has exactly the same effect on OUT memory and `wp` as its sequence of pulses, in
every state, also where the memory overflows. -/
def Obligations.ByteExpansionLaw : Prop :=
  ∀ (d : Byte) (s : State), ∃ t u, exec (.byte d) s = .next t ∧ execSeq (byteExpansion d) s = .next u ∧
    t.out = u.out ∧ t.wp = u.wp

/-- `FIN` (R240 to R244): the 44 bytes of the layout of R241 with `D = wp - 44` in both size fields, `OUT_LEN = wp`, and
nothing else. -/
def Obligations.FinWritesHeaderAndLength : Prop :=
  ∀ s : State, ∃ t, exec .fin s = .next t ∧ t = { s with out := t.out, outLen := s.wp } ∧
    (∀ a, 44 ≤ a → t.out.read a = s.out.read a) ∧
    ∀ a, a < 44 → t.out.read a =
      ([0x52, 0x49, 0x46, 0x46] ++ le32 (s.wp - 44) ++ [0x57, 0x41, 0x56, 0x45, 0x66, 0x6D, 0x74, 0x20, 0x10, 0x00,
        0x00, 0x00, 0x01, 0x00, 0x01, 0x00, 0xC0, 0xA8, 0x00, 0x00, 0xC0, 0xA8, 0x00, 0x00, 0x01, 0x00, 0x08, 0x00,
        0x64, 0x61, 0x74, 0x61] ++ le32 (s.wp - 44) : List Byte)[a]?

/-- Both size fields hold the total length minus 44, least significant byte first (R242, R243). -/
def Obligations.HeaderSizesAreLengthMinus44 : Prop :=
  ∀ s t : State, 44 ≤ s.wp.toNat → exec .fin s = .next t →
    ∀ off, off = 4 ∨ off = 40 → ∃ b0 b1 b2 b3 : Byte,
      t.out.read off = some b0 ∧ t.out.read (off + 1) = some b1 ∧ t.out.read (off + 2) = some b2 ∧
      t.out.read (off + 3) = some b3 ∧
      b0.toNat + 256 * b1.toNat + 65536 * b2.toNat + 16777216 * b3.toNat = t.outLen.toNat - 44

/-- Every pulse sample is the document's `u8(trunc(127 × sin(2πn / L))) XOR 0x80` (R140, R142, R145), for the four pulses
there are; `trunc` rounds toward zero. -/
def Obligations.SineRomIsTheDocumentsFormula : Prop :=
  ∀ (k : Nat) (t : Tone), k = 1 ∨ k = 2 → ∀ n, n < pulseLength k t →
    ∃ v : Int,
      (0 ≤ 127 * Real.sin (2 * Real.pi * n / pulseLength k t) →
        v = ⌊127 * Real.sin (2 * Real.pi * n / pulseLength k t)⌋) ∧
      (127 * Real.sin (2 * Real.pi * n / pulseLength k t) < 0 →
        v = ⌈127 * Real.sin (2 * Real.pi * n / pulseLength k t)⌉) ∧
      (pulseSamples k t)[n]? = some (BitVec.ofInt 8 v ^^^ 0x80)

/-- The durations of R141, R148, R165 and R184: two SHORT pulses last as long as one LONG pulse, 2400 baud halves every
pulse and every byte, and the headers last as long at either rate. -/
def Obligations.DurationsByBaud : Prop :=
  (∀ k, k = 1 ∨ k = 2 →
    2 * pulseLength k .short = pulseLength k .long ∧ ∀ d, (microSamples k (.byte d)).length = 396 / k) ∧
  (∀ t, pulseLength 1 t = 2 * pulseLength 2 t) ∧
  (∀ s, (microSamples 1 (.hdr s)).length = (microSamples 2 (.hdr (2 * s))).length) ∧
  sampleCount 1 (.hdr 16000) = 288000 ∧ sampleCount 2 (.hdr 8000) = 72000

/-- The assembler's range checks (R102, R103): an operand that fits has one word, one that does not has none. -/
def Obligations.OutOfRangeOperandSpellsNoWord : Prop :=
  ∀ n k : Nat,
    (assembleWords k (.sil n) = if n < 2 ^ 28 then some [BitVec.ofNat 32 (0x10000000 + n)] else none) ∧
    (assembleWords k (.hdr n) = if n < 2 ^ 28 then some [BitVec.ofNat 32 (0x30000000 + n)] else none) ∧
    (assembleWords k (.byte n) = if n < 256 then some [BitVec.ofNat 32 (0x40000000 + n)] else none) ∧
    (assembleWords k (.sils n) =
      if 1 ≤ n ∧ n ≤ 6213 then some [BitVec.ofNat 32 (0x10000000 + n * 43200)] else none)

/-! ## The host commands -/

/-- `START` with a legal configuration (R260, R261, R202): the run begins, the result of the run before is cleared, and
no memory or configuration register changes. `casTainted`, `trace` and `errInfo` are the model's own
(log 9, log 16). -/
def Obligations.StartBeginsRun : Prop :=
  ∀ s : State, s.status.busy = false → (s.baud = 1200 ∨ s.baud = 2400) → s.leadinS.toInt ≤ 6213 →
    s.casLen.toNat ≤ s.cfg.casCap.toNat →
    exec .start s = .next { s with
      status := { busy := true, done := false, err := false, errcode := .none, mode := .unknown, modeValid := false }
      outLen := 0
      st := .scanning
      cur := .unknown
      pos := 0
      eof := false
      wp := 44
      prog := none
      casTainted := false
      trace := []
      errInfo := none }

/-- `START` with a configuration that fails any of the three conditions (R260, R261, R305): BAD_CONFIG at once, the
single code 3; `BUSY` is never set, no run begins, OUT memory is not touched. `casTainted`, `trace` and `errInfo` are
the model's own (log 9, log 16). -/
def Obligations.StartRejectsBadConfig : Prop :=
  ∀ s : State, s.status.busy = false →
    ¬ ((s.baud = 1200 ∨ s.baud = 2400) ∧ s.leadinS.toInt ≤ 6213 ∧ s.casLen.toNat ≤ s.cfg.casCap.toNat) →
    ∃ t, exec .start s = .next t ∧ t.status.word = 0x036 ∧
      t = { s with
        status := t.status
        outLen := 0
        prog := none
        casTainted := false
        trace := []
        errInfo := none }

/-- `START` while a run is in progress has no effect at all (R260). -/
def Obligations.StartIgnoredWhileBusy : Prop :=
  ∀ s : State, s.status.busy = true → exec .start s = .next s

/-- `SRST` (R263): whatever was in progress, the block is in IDLE with a cleared result; the configuration registers and
both memories keep their contents, and no OUT address has a defined value for the host. That the transient registers,
`stage` and `further` keep their values is the model's choice, for R40 leaves the registers unspecified after SRST
(log 6, log 16); `casTainted`, `trace` and `errInfo` are the model's own (log 9, log 16). -/
def Obligations.SrstAbortsAndClears : Prop :=
  ∀ s : State, ∃ t, exec .srst s = .next t ∧
    t = { s with
      st := .idle
      status := t.status
      outLen := 0
      pos := 0
      eof := false
      cur := .unknown
      wp := 44
      prog := none
      casTainted := false
      trace := []
      errInfo := none } ∧
    t.status.word = 0 ∧ ∀ a, outDefined t a = false

/-! ## A step -/

/-- A step runs the decoded instruction: the word at the head of the micro-operation port (R266), the value of a CTRL
write (R101), and whatever the TPSM issues (R201). -/
def Obligations.StepRunsDecodedInstruction : Prop :=
  (∀ (s : State) (w : Word) (ws : List Word) (i : Instr), s.schedule = [] → s.prog = some (w :: ws) →
    decodeMop w = .ok i → step s = thenDo (exec i { s with prog := some ws }) (afterPortWord i)) ∧
  (∀ (s : State) (c : Word) (rest : List Turn) (i : Instr), s.schedule = .host (.writeReg .word 0 c) :: rest →
    decodeCtrl c = .ok i → step s = exec i { s with schedule := rest }) ∧
  (∀ (s t : State) (i : Instr) (k : State → State), fetch s = .run i t k → step s = thenDo (exec i t) k)

/-- A table word placed by `withFetchWord` is what the very next step fetches, and the placing changes no register a
micro-operation or a command reads but BUSY, and no memory. How a table word is read and where it is placed is the
model's choice (log 4, log 5); no rule of the spec says it. -/
def Obligations.PlacedWordRunsNext : Prop :=
  ∀ (s : State) (w : Nat) (i : Instr), decodeTableWord 32 w = some i →
    ∃ (t : State) (k : State → State), fetch (s.withFetchWord 32 w) = .run i t k ∧
      t = { s with status := { s.status with busy := t.status.busy }, prog := t.prog } ∧
      (i.isMicroOp = false → t = s)

/-- Driving the micro-operation port of a block at rest (R266): the entry of `ExecProgram`; with a BAUD that R261 would
reject, no program begins and BAD_CONFIG is recorded (the model's choice, log 13); while BUSY the drive is refused (the
model's choice, log 14). That `st`, `pos`, `eof` and `cur` stay as they were while BUSY is set is the model's inference
(log 18), that the transient registers stay is its choice (log 6), and `casTainted`, `trace` and `errInfo` are its own
(log 9, log 16). -/
def Obligations.DriveBeginsProgram : Prop :=
  ∀ (s : State) (ws : List Word) (rest : List Turn), s.schedule = .host (.drive ws) :: rest →
    (s.status.busy = true → step s = .refused .microOpPortBusy) ∧
    (s.status.busy = false → s.baud = 1200 ∨ s.baud = 2400 →
      step s = .next { s with
        schedule := rest
        status := { busy := true, done := false, err := false, errcode := .none, mode := .unknown, modeValid := false }
        outLen := 0
        wp := 44
        prog := some ws
        casTainted := false
        trace := []
        errInfo := none }) ∧
    (s.status.busy = false → ¬ (s.baud = 1200 ∨ s.baud = 2400) →
      ∃ t, step s = .next t ∧ t.status.word = 0x036 ∧ t.prog = none ∧ t.out = s.out ∧ t.wp = s.wp)

/-- An illegal word at the micro-operation port (R98, R306): ILLEGAL_MOP is recorded, the program is over, nothing is
written. `errInfo` is the model's observation (log 16). -/
def Obligations.IllegalWordEndsProgram : Prop :=
  ∀ (s : State) (w : Word) (ws : List Word) (e : Reject), s.schedule = [] → s.prog = some (w :: ws) →
    decodeMop w = .error e →
    step s = .next { s with
      st := .idle
      prog := none
      outLen := 0
      status := { s.status with busy := false, done := true, err := true, errcode := .illegalMop }
      errInfo := some (.word w) }

/-- FIN at the micro-operation port ends the program successfully, and so does the end of the list, without a header and
without a length (R266). -/
def Obligations.ProgramEnds : Prop :=
  (∀ (s : State) (w : Word) (ws : List Word), s.schedule = [] → s.prog = some (w :: ws) → decodeMop w = .ok .fin →
    step s = .next { s with
      out := writeHeader (headerFields (s.wp - 44)) s.out
      outLen := s.wp
      st := .idle
      prog := none
      status := { s.status with busy := false, done := true } }) ∧
  (∀ s : State, s.schedule = [] → s.prog = some [] →
    step s = .next { s with st := .idle, prog := none, status := { s.status with busy := false, done := true } })

/-- In IDLE the block waits (R342, R319). -/
def Obligations.IdleBlockWaits : Prop :=
  ∀ s : State, s.tpsmTurn → s.st = .idle → step s = .next s

/-! ## The tape protocol state machine -/

/-- One pass of `Scan()` (R205, R206). -/
def Obligations.ScanMoves : Prop :=
  ∀ s : State, s.tpsmTurn → s.st = .scanning → s.casTainted = false →
    (bytesLeft s < 8 → step s = .next { s with st := .done }) ∧
    (8 ≤ bytesLeft s → casBytes s s.pos.toNat 8 ≠ syncMarker → step s = .next { s with pos := s.pos + 1 }) ∧
    (8 ≤ bytesLeft s → casBytes s s.pos.toNat 8 = syncMarker →
      ∃ t, step s = .next t ∧ t.pos = s.pos + 8 ∧ t.trace = s.trace ∧ t.out = s.out ∧ t.wp = s.wp)

/-- A marker followed by fewer than 10 bytes (R207, R302, R304): TRUNCATED_BLOCK with the marker's address, and the
mode as recorded before. `errInfo` is the model's observation (log 16). -/
def Obligations.TruncatedBlockEndsRun : Prop :=
  ∀ s : State, s.tpsmTurn → s.st = .scanning → s.casTainted = false → 8 ≤ bytesLeft s → bytesLeft s < 18 →
    casBytes s s.pos.toNat 8 = syncMarker →
    step s = .next { s with
      pos := s.pos + 8
      st := .idle
      outLen := 0
      status := { s.status with busy := false, done := true, err := true, errcode := .truncatedBlock }
      errInfo := some (.marker s.pos) }

/-- A marker followed by at least 10 bytes (R206 to R209): the block is dispatched with the mode its window has, and the
run's first block records it. `stage` and `further` are the model's place in the policy (log 16). -/
def Obligations.MarkerDispatchesBlock : Prop :=
  ∀ s : State, s.tpsmTurn → s.st = .scanning → s.casTainted = false → 18 ≤ bytesLeft s →
    casBytes s s.pos.toNat 8 = syncMarker →
    step s = .next { s with
      pos := s.pos + 8
      st := .dispatching
      cur := classify (casBytes s (s.pos.toNat + 8) 10)
      status := if s.status.modeValid then s.status
        else { s.status with mode := classify (casBytes s (s.pos.toNat + 8) 10), modeValid := true }
      stage := .silence
      further := false }

/-- `Classify` (R208), whatever the 10-byte window. -/
def Obligations.ClassifyByTypeMarker : Prop :=
  ∀ w : List Byte, w.length = 10 →
    (classify w = .ascii ↔ ∀ b ∈ w, b = 0xEA) ∧ (classify w = .binary ↔ ∀ b ∈ w, b = 0xD0) ∧
    (classify w = .basic ↔ ∀ b ∈ w, b = 0xD3) ∧
    (classify w = .unknown ↔ ¬ (∀ b ∈ w, b = 0xEA) ∧ ¬ (∀ b ∈ w, b = 0xD0) ∧ ¬ (∀ b ∈ w, b = 0xD3))

/-- The silence before a chunk (R182, R203, R212 to R214): 43200 samples before a further chunk; before a block's first
chunk 86400 in an Unknown block, and elsewhere `LEADIN_S × 43200` where `LEADIN_S > 0`, else 86400. -/
def Obligations.SilenceBeforeChunk : Prop :=
  ∀ (s : State) (n : Nat), s.tpsmTurn → s.st = .dispatching → s.stage = .silence → s.leadinS.toInt ≤ 6213 →
    (s.further = true → n = 43200) →
    (s.further = false → s.cur = .unknown → n = 86400) →
    (s.further = false → s.cur ≠ .unknown → s.leadinS.toInt ≤ 0 → n = 86400) →
    (s.further = false → s.cur ≠ .unknown → 0 < s.leadinS.toInt → (n : Int) = s.leadinS.toInt * 43200) →
    step s = thenDo (exec (.sil n) { s with trace := s.trace ++ [encode (.sil n)] })
      (tpsmThen fun t => { t with stage := .header })

/-- The header before a chunk (R183, R212 to R214), and the entry into `Data()`, which clears `eof` (R210). -/
def Obligations.HeaderBeforeChunk : Prop :=
  ∀ (s : State) (p : Nat), s.tpsmTurn → s.st = .dispatching → s.stage = .header →
    (s.baud = 1200 ∧ s.further = false ∧ p = 16000) ∨ (s.baud = 1200 ∧ s.further = true ∧ p = 4000) ∨
      (s.baud = 2400 ∧ s.further = false ∧ p = 32000) ∨ (s.baud = 2400 ∧ s.further = true ∧ p = 8000) →
    step s = thenDo (exec (.hdr p) { s with trace := s.trace ++ [encode (.hdr p)] })
      (tpsmThen fun t => { t with stage := .bytes, eof := false })

/-- The per-byte phase of `Data()` (R210, R211). -/
def Obligations.DataPerBytePhase : Prop :=
  ∀ s : State, s.tpsmTurn → s.st = .dispatching → s.stage = .bytes → s.casTainted = false →
    (bytesLeft s < 8 → step s = .next { s with stage := .tail s.pos }) ∧
    (8 ≤ bytesLeft s → casBytes s s.pos.toNat 8 = syncMarker → step s = .next { s with stage := .chunkEnd }) ∧
    (8 ≤ bytesLeft s → casBytes s s.pos.toNat 8 ≠ syncMarker →
      step s = thenDo
        (exec (.byte (casByte s s.pos.toNat)) { s with trace := s.trace ++ [encode (.byte (casByte s s.pos.toNat))] })
        (tpsmThen fun t => { t with
          eof := s.eof || decide (casByte s s.pos.toNat = 0x1A)
          pos := s.pos + 1 }))

/-- The tail phase of `Data()` (R210, R211): the rest of the stream is encoded, and `eof` looks at the tail's first
byte, if the tail has one. -/
def Obligations.DataTailPhase : Prop :=
  ∀ (s : State) (t0 : Word), s.tpsmTurn → s.st = .dispatching → s.stage = .tail t0 → s.casTainted = false →
    (s.pos.toNat < s.casLen.toNat →
      step s = thenDo
        (exec (.byte (casByte s s.pos.toNat)) { s with trace := s.trace ++ [encode (.byte (casByte s s.pos.toNat))] })
        (tpsmThen fun t => { t with pos := s.pos + 1 })) ∧
    (s.casLen.toNat ≤ s.pos.toNat →
      step s = .next { s with
        eof := s.eof || (decide (t0.toNat < s.casLen.toNat) && decide (casByte s t0.toNat = 0x1A))
        stage := .chunkEnd })

/-- What a policy does when `Data()` has returned (R212 to R215): an Unknown block is complete; an ASCII block goes on
while `eof = 0` and the stream has not ended; a Binary or Basic block has exactly one further chunk, with a clamped
skip. -/
def Obligations.PolicyAfterChunk : Prop :=
  ∀ s : State, s.tpsmTurn → s.st = .dispatching → s.stage = .chunkEnd →
    (s.cur = .unknown → step s = .next { s with st := .scanning }) ∧
    (s.cur = .ascii → s.eof = false → s.pos.toNat < s.casLen.toNat →
      step s = .next { s with pos := s.pos + 8, stage := .silence, further := true }) ∧
    (s.cur = .ascii → (s.eof = true ∨ s.casLen.toNat ≤ s.pos.toNat) → step s = .next { s with st := .scanning }) ∧
    (s.cur = .binary ∨ s.cur = .basic → s.further = true → step s = .next { s with st := .scanning }) ∧
    (s.cur = .binary ∨ s.cur = .basic → s.further = false →
      ∃ p : Word, p.toNat = min (s.pos.toNat + 8) s.casLen.toNat ∧
        step s = .next { s with pos := p, stage := .silence, further := true })

/-- Done (R216, R244, R262): FIN is issued and the run ends successfully, with `OUT_LEN = wp` and the header written. -/
def Obligations.DoneIssuesFin : Prop :=
  ∀ s : State, s.tpsmTurn → s.st = .done →
    step s = .next { s with
      trace := s.trace ++ [0x50000000]
      out := writeHeader (headerFields (s.wp - 44)) s.out
      outLen := s.wp
      st := .idle
      prog := none
      status := { s.status with busy := false, done := true } }

/-! ## The host's accesses -/

/-- While BUSY a write to a configuration register is ignored (R42). -/
def Obligations.ConfigWritesIgnoredWhileBusy : Prop :=
  ∀ (s : State) (offset : Nat) (v : Word) (rest : List Turn),
    s.schedule = .host (.writeReg .word offset v) :: rest → s.status.busy = true →
    offset = 0x08 ∨ offset = 0x0C ∨ offset = 0x10 → step s = .next { s with schedule := rest }

/-- A register write by offset (R22, R24 to R26, R28, R30, R41): the three configuration registers store all 32 bits; a write
to `STATUS`, `OUT_LEN`, `OUT_CAP` or a reserved offset has no effect, also while BUSY. -/
def Obligations.RegisterWrites : Prop :=
  ∀ (s : State) (offset : Nat) (v : Word) (rest : List Turn),
    s.schedule = .host (.writeReg .word offset v) :: rest →
    (s.status.busy = false → offset = 0x08 → step s = .next { s with schedule := rest, baud := v }) ∧
    (s.status.busy = false → offset = 0x0C → step s = .next { s with schedule := rest, leadinS := v }) ∧
    (s.status.busy = false → offset = 0x10 → step s = .next { s with schedule := rest, casLen := v }) ∧
    (offset = 0x04 ∨ (0x14 ≤ offset ∧ offset ≤ 0xFC ∧ offset % 4 = 0) → step s = .next { s with schedule := rest })

/-- A register read by offset (R22, R27 to R30, R41, R346), also during a run; STATUS here of a block that is not busy,
and STATUS and `OUT_LEN` where no CAS write has put the result in doubt. A read changes nothing but the value the host
gets. -/
def Obligations.RegisterReads : Prop :=
  ∀ (s : State) (offset : Nat) (rest : List Turn) (v : Word),
    s.schedule = .host (.readReg .word offset) :: rest →
    (offset = 0x00 ∧ v = 0) ∨
      (offset = 0x04 ∧ s.status.busy = false ∧ s.casTainted = false ∧ v = s.status.word) ∨
      (offset = 0x08 ∧ v = s.baud) ∨ (offset = 0x0C ∧ v = s.leadinS) ∨ (offset = 0x10 ∧ v = s.casLen) ∨
      (offset = 0x14 ∧ (s.casTainted = false ∨ s.status.done = false) ∧ v = s.outLen) ∨
      (offset = 0x18 ∧ v = s.cfg.outCap) ∨ (0x1C ≤ offset ∧ offset ≤ 0xFC ∧ offset % 4 = 0 ∧ v = 0) →
    step s = .next { s with schedule := rest, readData := v }

/-- STATUS read while a run is in progress (R28, R350): BUSY is 1, DONE, ERR and the error code as they stand; the mode
either as recorded or not shown, a free choice at each read (log 11). -/
def Obligations.StatusReadWhileBusy : Prop :=
  ∀ (s : State) (rest : List Turn), s.schedule = .host (.readReg .word 0x04) :: rest → s.status.busy = true →
    s.casTainted = false →
    ∃ t, step s = .next t ∧ t = { s with schedule := rest, readData := t.readData, draws := t.draws } ∧
      (t.readData = s.status.word ∨ t.readData = s.status.hideMode.word) ∧ t.readData.getLsbD 0 = true

/-- The word of STATUS has its fields at the places of R28, with the codes of R23 and R29 in numbers, and 0 elsewhere. -/
def Obligations.StatusWordFields : Prop :=
  ∀ (t : Status) (code mode : Nat),
    (t.errcode = .none ∧ code = 0) ∨ (t.errcode = .truncatedBlock ∧ code = 1) ∨
      (t.errcode = .outputOverflow ∧ code = 2) ∨ (t.errcode = .badConfig ∧ code = 3) ∨
      (t.errcode = .illegalMop ∧ code = 4) →
    (t.mode = .unknown ∧ mode = 0) ∨ (t.mode = .ascii ∧ mode = 1) ∨ (t.mode = .binary ∧ mode = 2) ∨
      (t.mode = .basic ∧ mode = 3) →
    t.word.toNat =
      t.busy.toNat + 2 * t.done.toNat + 4 * t.err.toNat + 16 * code + 256 * mode + 1024 * t.modeValid.toNat

/-- A sub-word, misaligned or out-of-window register-port access is refused (R41, U9). -/
def Obligations.PortAccessRefused : Prop :=
  ∀ (s : State) (w : Width) (offset : Nat) (v : Word) (rest : List Turn),
    w ≠ .word ∨ offset % 4 ≠ 0 ∨ 256 ≤ offset →
    (s.schedule = .host (.readReg w offset) :: rest → step s = .refused (.portAccess w offset)) ∧
    (s.schedule = .host (.writeReg w offset v) :: rest → step s = .refused (.portAccess w offset))

/-- A host write of a CAS byte (R60, R61): that byte changes, no other. While BUSY the spec gives a write no defined
visibility (R75); that it then stores its byte all the same and marks the run as tainted is the model's choice (log 9).
An address the memory does not have is a fault (the model's choice, log 15). -/
def Obligations.CasWriteStoresByte : Prop :=
  ∀ (s : State) (a : Word) (b : Byte) (rest : List Turn), s.schedule = .host (.writeCas a b) :: rest →
    (a.toNat < s.cfg.casCap.toNat →
      ∃ t, step s = .next t ∧
        t = { s with schedule := rest, cas := t.cas, casTainted := s.casTainted || s.status.busy } ∧
        ∀ x, casByte t x = if x = a.toNat then b else casByte s x) ∧
    (s.cfg.casCap.toNat ≤ a.toNat → step s = .fault (.casAddress a))

/-- A CAS byte the block reads after the host wrote CAS memory during the run is a free value, a new one at each read
(R75, U7; log 7, log 9); before that it is the byte that stands there, and the read changes nothing (R62). -/
def Obligations.CasReadByBlock : Prop :=
  ∀ (s : State) (a : Nat),
    (s.casTainted = false → casRead a s = (casByte s a, s)) ∧
    (s.casTainted = true → casRead a s = (Config.freeByte s.draws, { s with draws := s.draws + 1 }))

/-- A host read of an OUT byte (R64, R72, R264, R266): after a run that ended without an error, the stored byte at the
header where there is a length and at every sample address below `wp`, also after a program that ended without FIN; a
free byte everywhere else: while a run is in progress, after an error, at or above `wp`, at a header that was not
written, and after a run during which CAS memory was written. Where the spec leaves the bounds of the defined bytes to
inference they are those of log 10. An address the memory does not have is a fault (the model's choice, log 15). -/
def Obligations.OutReadByHost : Prop :=
  ∀ (s : State) (a : Word) (rest : List Turn), s.schedule = .host (.readOut a) :: rest →
    (s.cfg.outCap.toNat ≤ a.toNat → step s = .fault (.outAddress a)) ∧
    (∀ b, a.toNat < s.cfg.outCap.toNat → s.status.done = true → s.status.err = false → s.casTainted = false →
      (a.toNat < s.outLen.toNat ∧ s.outLen = s.wp) ∨ (44 ≤ a.toNat ∧ a.toNat < s.wp.toNat) →
      s.out.read a.toNat = some b →
      step s = .next { s with schedule := rest, readData := b.setWidth 32 }) ∧
    (a.toNat < s.cfg.outCap.toNat →
      s.status.done = false ∨ s.status.err = true ∨ s.casTainted = true ∨
        (44 ≤ a.toNat ∧ s.wp.toNat ≤ a.toNat) ∨ (a.toNat < 44 ∧ s.outLen = 0) →
      step s = .next { s with
        schedule := rest
        draws := s.draws + 1
        readData := (Config.freeByte s.draws).setWidth 32 })

/-- What the host reads of a finished run during which it wrote CAS memory (R75, U7): `OUT_LEN` and every OUT byte are
free values (log 7, log 9); STATUS keeps every bit but MODE. -/
def Obligations.TaintedResultIsFree : Prop :=
  ∀ (s : State) (rest : List Turn), s.casTainted = true → s.status.done = true → s.status.busy = false →
    (s.schedule = .host (.readReg .word 0x14) :: rest →
      step s = .next { s with schedule := rest, draws := s.draws + 1, readData := Config.freeWord s.draws }) ∧
    (∀ a : Word, s.schedule = .host (.readOut a) :: rest → a.toNat < s.cfg.outCap.toNat →
      step s = .next { s with
        schedule := rest
        draws := s.draws + 1
        readData := (Config.freeByte s.draws).setWidth 32 }) ∧
    (s.schedule = .host (.readReg .word 0x04) :: rest →
      ∃ t, step s = .next t ∧ t = { s with schedule := rest, readData := t.readData, draws := t.draws } ∧
        ∀ i, i ≠ 8 → i ≠ 9 → t.readData.getLsbD i = s.status.word.getLsbD i)

/-- The power-on reset asserted at any moment (R340, R341): every register as R40 says, whatever was in progress; the
parameters stay. -/
def Obligations.PowerOnResetsRegisters : Prop :=
  ∀ (s : State) (rest : List Turn), s.schedule = .host .powerOn :: rest →
    ∃ t, step s = .next t ∧ t.cfg = s.cfg ∧ t.status.word = 0 ∧ t.baud = 1200 ∧ t.leadinS = 0 ∧ t.casLen = 0 ∧
      t.outLen = 0 ∧ t.st = .idle ∧ t.cur = .unknown ∧ t.pos = 0 ∧ t.eof = false ∧ t.wp = 44 ∧ t.prog = none ∧
      t.schedule = rest ∧ ∀ a, outDefined t a = false

/-- The state after reset, for every choice of the parameters (R40, R341). The last clause, which parameters `State.reset`
has, is the model's choice (log 1). -/
def Obligations.ResetValues : Prop :=
  ∀ c : Config,
    (State.powerOn c).status.word = 0 ∧ (State.powerOn c).baud = 1200 ∧ (State.powerOn c).leadinS = 0 ∧
    (State.powerOn c).casLen = 0 ∧ (State.powerOn c).outLen = 0 ∧ (State.powerOn c).cfg.outCap = c.outCap ∧
    (State.powerOn c).st = .idle ∧ (State.powerOn c).cur = .unknown ∧ (State.powerOn c).pos = 0 ∧
    (State.powerOn c).eof = false ∧ (State.powerOn c).wp = 44 ∧ State.reset = State.powerOn Config.largest

/-! ## The whole machine -/

/-- The invariant holds right after reset, for every legal choice of the parameters; those of `State.reset` are the
model's choice (log 1). -/
def Obligations.InvAtReset : Prop :=
  State.reset.Inv ∧ ∀ c : Config, c.legal → (State.powerOn c).Inv

/-- Every step keeps the invariant. Its clause on BUSY, that BUSY is 1 exactly while the TPSM is not in IDLE or a program
stands at the micro-operation port, is the model's inference from R32 and R266 (log 18). -/
def Obligations.StepKeepsInv : Prop :=
  ∀ s t : State, s.Inv → step s = .next t → t.Inv

/-- A turn of the block never writes CAS memory (R61) and never changes the configuration registers or the parameters
(R42), and it neither faults nor is refused. It takes its own entry off the schedule (log 3), and what else it does is
the same whatever the schedule holds after it: what is stated of a block turn with nothing scheduled holds of every
block turn. -/
def Obligations.BlockTurnKeepsInputs : Prop :=
  (∀ s : State, s.blockTurn → ∃ t, step s = .next t ∧ t.cas = s.cas ∧ t.cfg = s.cfg ∧ t.baud = s.baud ∧
    t.leadinS = s.leadinS ∧ t.casLen = s.casLen ∧ t.casTainted = s.casTainted ∧ t.schedule = s.schedule.tail) ∧
  ∀ (s : State) (rest : List Turn),
    step { s with schedule := .block :: rest } =
      thenDo (step { s with schedule := [] }) fun t => { t with schedule := rest }

/-- The cursor never moves back and never passes the end of the stream while a run goes on (R31, R219). -/
def Obligations.CursorAdvancesWithinStream : Prop :=
  ∀ s t : State, s.Inv → s.blockTurn → s.st ≠ .idle → step s = .next t →
    s.pos.toNat ≤ t.pos.toNat ∧ t.pos.toNat ≤ s.casLen.toNat

/-- No turn of the block drops, moves or overwrites a sample, and each leaves `wp` where it is or moves it up (R125). -/
def Obligations.SamplesStayOnceWritten : Prop :=
  ∀ s t : State, s.Inv → s.blockTurn → step s = .next t →
    s.wp.toNat ≤ t.wp.toNat ∧ ∀ a, 44 ≤ a → a < s.wp.toNat → t.out.read a = s.out.read a

/-- Every run ends (R349): a TPSM run or a program of the micro-operation port, with the host doing nothing more. -/
def Obligations.EveryRunEnds : Prop :=
  ∀ s : State, s.Inv → s.status.busy = true → s.schedule = [] →
    ∃ k t, s.after k = .next t ∧ t.status.done = true ∧ t.status.busy = false

/-- The bound on the words of a run (R220, R349). -/
def Obligations.TraceLengthBound : Prop :=
  ∀ (s a t : State) (k : Nat), s.quiet → exec .start s = .next a → a.after k = .next t →
    t.trace.length ≤ s.casLen.toNat + 4 * (s.casLen.toNat / 8) + 1

/-- The length of a successful run (R225): 44 plus the sample counts of the words of its trace. -/
def Obligations.OutputLengthIsSumOfTrace : Prop :=
  ∀ (s a t : State) (k f : Nat), s.quiet → exec .start s = .next a → a.after k = .next t →
    baudFactor s.baud = some f → t.status.done = true → t.status.err = false →
    t.outLen.toNat = 44 + ((microOps t.trace).map (sampleCount f)).sum

/-- The two configurations agree (R267): a finished START run and a program of the words it issued, driven from the same
state, leave the same OUT memory, `OUT_LEN`, BUSY, DONE, ERR and ERRCODE; after a TRUNCATED_BLOCK, which comes from the
TPSM, the program ends without an error and OUT memory agrees. The program sets no mode. -/
def Obligations.RunEqualsProgramOfItsTrace : Prop :=
  ∀ (s a t : State) (k : Nat), s.Inv → s.quiet → configOk s = true → exec .start s = .next a → a.after k = .next t →
    t.status.done = true →
    ∃ j u, 1 ≤ j ∧ ({ s with schedule := [.host (.drive t.trace)] } : State).after j = .next u ∧ u.status.done = true ∧
      u.status.busy = false ∧ t.status.busy = false ∧ u.out = t.out ∧
      u.status.mode = .unknown ∧ u.status.modeValid = false ∧
      (t.status.errcode = .truncatedBlock → u.status.err = false) ∧
      (t.status.errcode ≠ .truncatedBlock →
        u.outLen = t.outLen ∧ u.status.err = t.status.err ∧ u.status.errcode = t.status.errcode)

/-- A run's result depends on its inputs alone (R265, R343): the CAS bytes below `CAS_LEN`, `BAUD`, `LEADIN_S`,
`CAS_LEN` and `OUT_CAP`. Two blocks at rest that agree on those show the host the same STATUS, `OUT_LEN` and result
bytes at every moment of their runs, whatever the rest of their states holds. -/
def Obligations.ResultDependsOnInputsAlone : Prop :=
  ∀ (s₁ s₂ a₁ a₂ : State) (k : Nat), s₁.quiet → s₂.quiet → configOk s₁ = true → configOk s₂ = true →
    s₁.cfg.outCap = s₂.cfg.outCap → s₁.baud = s₂.baud → s₁.leadinS = s₂.leadinS → s₁.casLen = s₂.casLen →
    (∀ x, x < s₁.casLen.toNat → casByte s₁ x = casByte s₂ x) →
    exec .start s₁ = .next a₁ → exec .start s₂ = .next a₂ →
    ∃ t₁ t₂, a₁.after k = .next t₁ ∧ a₂.after k = .next t₂ ∧ hostView t₁ = hostView t₂ ∧ t₁.trace = t₂.trace
end

