-- ==== Sys2Proof/Laws/Decode.lean ====
section
/-! SUPPORT. The fields of a word as numbers, and the words of the encoder as numbers. -/

namespace Sys2Proof.Laws

theorem opField_toNat (w : Word) : (opField w).toNat = w.toNat / 2 ^ 28 := by
  have := w.isLt
  rw [opField, BitVec.extractLsb'_toNat, Nat.shiftRight_eq_div_pow]
  omega

theorem argField_toNat (w : Word) : (argField w).toNat = w.toNat % 2 ^ 28 := by
  rw [argField, BitVec.extractLsb'_toNat, Nat.shiftRight_zero]

theorem append_toNat {m n : Nat} (x : BitVec m) (y : BitVec n) : (x ++ y).toNat = x.toNat * 2 ^ n + y.toNat := by
  rw [BitVec.toNat_append, ← Nat.shiftLeft_add_eq_or_of_lt y.isLt, Nat.shiftLeft_eq]

/-- The word of an instruction as a number: its opcode's 2^28 and its operand (R102). -/
theorem encode_toNat (i : Instr) : (encode i).toNat =
    match i with
    | .sil n => 0x10000000 + n % 2 ^ 28
    | .pulse t => 0x20000000 + (toneBit t).toNat
    | .hdr p => 0x30000000 + p % 2 ^ 28
    | .byte d => 0x40000000 + d.toNat
    | .fin => 0x50000000
    | .start => 1
    | .srst => 2 := by
  cases i with
  | sil n => exact (append_toNat _ _).trans (by simp)
  | pulse t => cases t <;> rfl
  | hdr p => exact (append_toNat _ _).trans (by simp)
  | byte d => exact (append_toNat _ _).trans (by simp)
  | fin => rfl
  | start => rfl
  | srst => rfl

end Sys2Proof.Laws
end

