-- ==== Sys2Proof/Laws/Memory.lean ====
section
/-! SUPPORT. The laws of the byte memories: a read after a write, and the canonical form. -/

namespace Sys2Proof.Laws

open Sys2Proof.Machine

theorem memory_read_nil (a : Nat) : Memory.read [] a = none := rfl

theorem memory_read_cons (c : Host.Cell) (m : Memory) (a : Nat) :
    Memory.read (c :: m) a = if c.1 = a then some c.2 else Memory.read m a := by
  by_cases h : c.1 = a <;> simp [Memory.read, h]

theorem memory_read_append (m n : Memory) (a : Nat) :
    Memory.read (m ++ n) a = (Memory.read m a).or (Memory.read n a) := by
  induction m with
  | nil => simp [memory_read_nil]
  | cons c m ih =>
    rw [List.cons_append, memory_read_cons, memory_read_cons, ih]
    split <;> simp

theorem memory_read_filter_keep (p : Nat → Bool) (m : Memory) (a : Nat) (h : p a = true) :
    Memory.read (m.filter fun c => p c.1) a = Memory.read m a := by
  induction m with
  | nil => rfl
  | cons c m ih =>
    rw [List.filter_cons, memory_read_cons]
    by_cases hc : c.1 = a
    · rw [if_pos (by rw [hc]; exact h), memory_read_cons]
      simp [hc]
    · rw [if_neg hc]
      split
      · rw [memory_read_cons, if_neg hc, ih]
      · exact ih

theorem memory_read_filter_drop (p : Nat → Bool) (m : Memory) (a : Nat) (h : p a = false) :
    Memory.read (m.filter fun c => p c.1) a = none := by
  induction m with
  | nil => rfl
  | cons c m ih =>
    rw [List.filter_cons]
    split
    · rename_i hp
      rw [memory_read_cons, if_neg, ih]
      rintro rfl
      rw [h] at hp
      cases hp
    · exact ih

theorem memory_cells_cons (a : Nat) (v : Byte) (vs : List Byte) :
    Memory.cells a (v :: vs) = (a, v) :: Memory.cells (a + 1) vs := by
  simp [Memory.cells, List.zipIdx_cons]

theorem memory_cells_nil (a : Nat) : Memory.cells a [] = [] := rfl

theorem memory_cells_key (a : Nat) (vs : List Byte) (c : Host.Cell) (h : c ∈ Memory.cells a vs) :
    a ≤ c.1 ∧ c.1 < a + vs.length := by
  induction vs generalizing a with
  | nil => simp [memory_cells_nil] at h
  | cons v vs ih =>
    rw [memory_cells_cons, List.mem_cons] at h
    rcases h with rfl | h
    · simp
    · have := ih (a + 1) h
      simp only [List.length_cons]
      omega

theorem memory_read_cells (a : Nat) (vs : List Byte) (b : Nat) :
    Memory.read (Memory.cells a vs) b = if a ≤ b then vs[b - a]? else none := by
  induction vs generalizing a with
  | nil => simp [memory_cells_nil, memory_read_nil]
  | cons v vs ih =>
    rw [memory_cells_cons, memory_read_cons, ih]
    by_cases h1 : a = b
    · subst h1
      simp
    · rw [if_neg h1]
      by_cases h2 : a ≤ b
      · rw [if_pos h2, if_pos (by omega), show b - a = (b - (a + 1)) + 1 by omega, List.getElem?_cons_succ]
      · rw [if_neg h2, if_neg (by omega)]

@[simp] theorem memory_writeRun_nil (m : Memory) (a : Nat) : m.writeRun a [] = m := rfl

theorem memory_writeRun_some (m : Memory) (a : Nat) (v : Byte) (vs : List Byte) :
    m.writeRun a (v :: vs) = (m.filter fun c => decide (c.1 < a)) ++ Memory.cells a (v :: vs)
      ++ (m.filter fun c => decide (a + (v :: vs).length ≤ c.1)) := rfl

/-- What a memory holds after consecutive bytes are stored: those bytes at their addresses, and everywhere else what
it held before. -/
theorem memory_read_writeRun (m : Memory) (a : Nat) (vs : List Byte) (b : Nat) :
    (m.writeRun a vs).read b = if a ≤ b ∧ b < a + vs.length then vs[b - a]? else m.read b := by
  rcases vs with _ | ⟨v, vs⟩
  · rw [memory_writeRun_nil, if_neg (by simp only [List.length_nil]; omega)]
  generalize hw : v :: vs = ws
  have hrun : m.writeRun a ws = (m.filter fun c => decide (c.1 < a)) ++ Memory.cells a ws
      ++ (m.filter fun c => decide (a + ws.length ≤ c.1)) := by rw [← hw]; rfl
  clear hw
  have hlow := memory_read_filter_keep (fun x => decide (x < a)) m b
  have hlow' := memory_read_filter_drop (fun x => decide (x < a)) m b
  have hhigh := memory_read_filter_keep (fun x => decide (a + ws.length ≤ x)) m b
  have hhigh' := memory_read_filter_drop (fun x => decide (a + ws.length ≤ x)) m b
  rw [hrun, memory_read_append, memory_read_append, memory_read_cells]
  by_cases h1 : b < a
  · rw [hlow (by simpa using h1), hhigh' (by simp; omega), if_neg (by omega), if_neg (by omega)]
    simp
  · by_cases h2 : b < a + ws.length
    · rw [hlow' (by simpa using h1), hhigh' (by simpa using h2), if_pos (by omega), if_pos (by omega)]
      simp
    · rw [hlow' (by simpa using h1), hhigh (by simp; omega), if_pos (by omega), if_neg (by omega),
        List.getElem?_eq_none (by omega)]
      simp

theorem memory_read_write (m : Memory) (a : Nat) (v : Byte) (b : Nat) :
    (m.write a v).read b = if b = a then some v else m.read b := by
  rw [Memory.write, memory_read_writeRun]
  by_cases h : b = a
  · subst h
    simp
  · rw [if_neg h, if_neg]
    simp only [List.length_cons, List.length_nil]
    omega

theorem memory_cells_wf (a : Nat) (vs : List Byte) : (Memory.cells a vs).wf := by
  induction vs generalizing a with
  | nil => exact List.Pairwise.nil
  | cons v vs ih =>
    rw [memory_cells_cons]
    refine List.Pairwise.cons (fun c hc => ?_) (ih (a + 1))
    have := (memory_cells_key (a + 1) vs c hc).1
    show a < c.1
    omega

/-- A store keeps the canonical form. -/
theorem memory_writeRun_wf (m : Memory) (a : Nat) (vs : List Byte) (h : m.wf) : (m.writeRun a vs).wf := by
  rcases vs with _ | ⟨v, vs⟩
  · exact h
  rw [memory_writeRun_some, Memory.wf, List.pairwise_append, List.pairwise_append]
  refine ⟨⟨h.filter _, memory_cells_wf a _, fun c hc d hd => ?_⟩, h.filter _, fun c hc d hd => ?_⟩
  · have h1 := (List.mem_filter.mp hc).2
    have h2 := memory_cells_key a _ d hd
    have h3 : c.1 < a := by simpa using h1
    omega
  · have h2 : a + (v :: vs).length ≤ d.1 := by simpa using (List.mem_filter.mp hd).2
    rcases List.mem_append.mp hc with hc | hc
    · have h1 : c.1 < a := by simpa using (List.mem_filter.mp hc).2
      omega
    · have := memory_cells_key a _ c hc
      omega

theorem memory_write_wf (m : Memory) (a : Nat) (v : Byte) (h : m.wf) : (m.write a v).wf :=
  memory_writeRun_wf m a [v] h

/-- A store lists no address it did not write and that was not listed before. -/
theorem memory_writeRun_mem (m : Memory) (a : Nat) (vs : List Byte) (c : Host.Cell) (h : c ∈ m.writeRun a vs) :
    c ∈ m ∨ (a ≤ c.1 ∧ c.1 < a + vs.length) := by
  rcases vs with _ | ⟨v, vs⟩
  · exact .inl h
  rw [memory_writeRun_some, List.mem_append, List.mem_append] at h
  rcases h with (h | h) | h
  · exact .inl (List.mem_filter.mp h).1
  · exact .inr (memory_cells_key a _ c h)
  · exact .inl (List.mem_filter.mp h).1

/-- Storing a run of bytes is storing its first byte and then the rest. -/
theorem memory_writeRun_cons (m : Memory) (a : Nat) (v : Byte) (vs : List Byte) :
    m.writeRun a (v :: vs) = (m.write a v).writeRun (a + 1) vs := by
  rcases vs with _ | ⟨w, ws⟩
  · rfl
  generalize hv : w :: ws = vs
  have hrun : ∀ (n : Memory) (b : Nat), n.writeRun b vs = (n.filter fun c => decide (c.1 < b)) ++ Memory.cells b vs
      ++ (n.filter fun c => decide (b + vs.length ≤ c.1)) := fun n b => by rw [← hv]; rfl
  clear hv
  have keep : ∀ (p q : Host.Cell → Bool) (l : Memory), (∀ c, p c = true → q c = true) →
      (l.filter p).filter q = l.filter p := fun p q l h =>
    List.filter_eq_self.mpr fun c hc => h c (List.mem_filter.mp hc).2
  have drop : ∀ (p q : Host.Cell → Bool) (l : Memory), (∀ c, p c = true → q c = false) →
      (l.filter p).filter q = [] := fun p q l h =>
    List.filter_eq_nil_iff.mpr fun c hc => by rw [h c (List.mem_filter.mp hc).2]; simp
  rw [hrun, Memory.write, memory_writeRun_some, memory_writeRun_some, memory_cells_cons, memory_cells_cons,
    memory_cells_nil]
  simp only [List.filter_append, List.length_cons, List.length_nil]
  rw [keep _ _ _ (fun c h => by simp at h ⊢; omega), drop _ _ _ (fun c h => by simp at h ⊢; omega),
    drop _ _ _ (fun c h => by simp at h ⊢; omega), List.filter_filter]
  have h1 : (List.filter (fun c : Host.Cell => decide (c.1 < a + 1)) [(a, v)]) = [(a, v)] := by simp
  have h2 : (List.filter (fun c : Host.Cell => decide (a + 1 + vs.length ≤ c.1)) [(a, v)]) = [] := by
    simp
    omega
  rw [h1, h2]
  have h3 : (fun c : Host.Cell => (decide (a + 1 + vs.length ≤ c.1) && decide (a + (0 + 1) ≤ c.1)))
      = fun c => decide (a + (vs.length + 1) ≤ c.1) := by
    funext c
    rw [← Bool.decide_and, decide_eq_decide]
    omega
  rw [h3]
  simp

end Sys2Proof.Laws
end

