-- ==== Sys2Proof/Laws/State.lean ====
section
/-! SUPPORT. What each named update of the state does to each field, true by unfolding it once here, so that no later
proof unfolds a record update. -/

namespace Sys2Proof.Laws

open Sys2Proof.Machine

/-! Raising an error (R304). -/

@[simp] theorem raiseError_cfg (e : ErrCode) (x : Option ErrorInfo) (s : State) : (raiseError e x s).cfg = s.cfg := rfl
@[simp] theorem raiseError_status (e : ErrCode) (x : Option ErrorInfo) (s : State) : (raiseError e x s).status = { s.status with busy := false, err := true, errcode := e, done := true } := rfl
@[simp] theorem raiseError_baud (e : ErrCode) (x : Option ErrorInfo) (s : State) : (raiseError e x s).baud = s.baud := rfl
@[simp] theorem raiseError_leadinS (e : ErrCode) (x : Option ErrorInfo) (s : State) : (raiseError e x s).leadinS = s.leadinS := rfl
@[simp] theorem raiseError_casLen (e : ErrCode) (x : Option ErrorInfo) (s : State) : (raiseError e x s).casLen = s.casLen := rfl
@[simp] theorem raiseError_outLen (e : ErrCode) (x : Option ErrorInfo) (s : State) : (raiseError e x s).outLen = 0 := rfl
@[simp] theorem raiseError_st (e : ErrCode) (x : Option ErrorInfo) (s : State) : (raiseError e x s).st = .idle := rfl
@[simp] theorem raiseError_cur (e : ErrCode) (x : Option ErrorInfo) (s : State) : (raiseError e x s).cur = s.cur := rfl
@[simp] theorem raiseError_pos (e : ErrCode) (x : Option ErrorInfo) (s : State) : (raiseError e x s).pos = s.pos := rfl
@[simp] theorem raiseError_eof (e : ErrCode) (x : Option ErrorInfo) (s : State) : (raiseError e x s).eof = s.eof := rfl
@[simp] theorem raiseError_wp (e : ErrCode) (x : Option ErrorInfo) (s : State) : (raiseError e x s).wp = s.wp := rfl
@[simp] theorem raiseError_regs (e : ErrCode) (x : Option ErrorInfo) (s : State) : (raiseError e x s).regs = s.regs := rfl
@[simp] theorem raiseError_cas (e : ErrCode) (x : Option ErrorInfo) (s : State) : (raiseError e x s).cas = s.cas := rfl
@[simp] theorem raiseError_out (e : ErrCode) (x : Option ErrorInfo) (s : State) : (raiseError e x s).out = s.out := rfl
@[simp] theorem raiseError_stage (e : ErrCode) (x : Option ErrorInfo) (s : State) : (raiseError e x s).stage = s.stage := rfl
@[simp] theorem raiseError_further (e : ErrCode) (x : Option ErrorInfo) (s : State) : (raiseError e x s).further = s.further := rfl
@[simp] theorem raiseError_prog (e : ErrCode) (x : Option ErrorInfo) (s : State) : (raiseError e x s).prog = none := rfl
@[simp] theorem raiseError_casTainted (e : ErrCode) (x : Option ErrorInfo) (s : State) : (raiseError e x s).casTainted = s.casTainted := rfl
@[simp] theorem raiseError_casEpoch (e : ErrCode) (x : Option ErrorInfo) (s : State) : (raiseError e x s).casEpoch = s.casEpoch := rfl
@[simp] theorem raiseError_draws (e : ErrCode) (x : Option ErrorInfo) (s : State) : (raiseError e x s).draws = s.draws := rfl
@[simp] theorem raiseError_trace (e : ErrCode) (x : Option ErrorInfo) (s : State) : (raiseError e x s).trace = s.trace := rfl
@[simp] theorem raiseError_errInfo (e : ErrCode) (x : Option ErrorInfo) (s : State) : (raiseError e x s).errInfo = x := rfl
@[simp] theorem raiseError_readData (e : ErrCode) (x : Option ErrorInfo) (s : State) : (raiseError e x s).readData = s.readData := rfl
@[simp] theorem raiseError_schedule (e : ErrCode) (x : Option ErrorInfo) (s : State) : (raiseError e x s).schedule = s.schedule := rfl

/-! The end of a run (R262). -/

@[simp] theorem endRun_cfg (s : State) : (endRun s).cfg = s.cfg := rfl
@[simp] theorem endRun_status (s : State) : (endRun s).status = { s.status with busy := false, done := true } := rfl
@[simp] theorem endRun_baud (s : State) : (endRun s).baud = s.baud := rfl
@[simp] theorem endRun_leadinS (s : State) : (endRun s).leadinS = s.leadinS := rfl
@[simp] theorem endRun_casLen (s : State) : (endRun s).casLen = s.casLen := rfl
@[simp] theorem endRun_outLen (s : State) : (endRun s).outLen = s.outLen := rfl
@[simp] theorem endRun_st (s : State) : (endRun s).st = .idle := rfl
@[simp] theorem endRun_cur (s : State) : (endRun s).cur = s.cur := rfl
@[simp] theorem endRun_pos (s : State) : (endRun s).pos = s.pos := rfl
@[simp] theorem endRun_eof (s : State) : (endRun s).eof = s.eof := rfl
@[simp] theorem endRun_wp (s : State) : (endRun s).wp = s.wp := rfl
@[simp] theorem endRun_regs (s : State) : (endRun s).regs = s.regs := rfl
@[simp] theorem endRun_cas (s : State) : (endRun s).cas = s.cas := rfl
@[simp] theorem endRun_out (s : State) : (endRun s).out = s.out := rfl
@[simp] theorem endRun_stage (s : State) : (endRun s).stage = s.stage := rfl
@[simp] theorem endRun_further (s : State) : (endRun s).further = s.further := rfl
@[simp] theorem endRun_prog (s : State) : (endRun s).prog = none := rfl
@[simp] theorem endRun_casTainted (s : State) : (endRun s).casTainted = s.casTainted := rfl
@[simp] theorem endRun_casEpoch (s : State) : (endRun s).casEpoch = s.casEpoch := rfl
@[simp] theorem endRun_draws (s : State) : (endRun s).draws = s.draws := rfl
@[simp] theorem endRun_trace (s : State) : (endRun s).trace = s.trace := rfl
@[simp] theorem endRun_errInfo (s : State) : (endRun s).errInfo = s.errInfo := rfl
@[simp] theorem endRun_readData (s : State) : (endRun s).readData = s.readData := rfl
@[simp] theorem endRun_schedule (s : State) : (endRun s).schedule = s.schedule := rfl

/-! What a start clears (R260). -/

@[simp] theorem clearResult_cfg (s : State) : (clearResult s).cfg = s.cfg := rfl
@[simp] theorem clearResult_status (s : State) : (clearResult s).status = Status.clear := rfl
@[simp] theorem clearResult_baud (s : State) : (clearResult s).baud = s.baud := rfl
@[simp] theorem clearResult_leadinS (s : State) : (clearResult s).leadinS = s.leadinS := rfl
@[simp] theorem clearResult_casLen (s : State) : (clearResult s).casLen = s.casLen := rfl
@[simp] theorem clearResult_outLen (s : State) : (clearResult s).outLen = 0 := rfl
@[simp] theorem clearResult_st (s : State) : (clearResult s).st = s.st := rfl
@[simp] theorem clearResult_cur (s : State) : (clearResult s).cur = s.cur := rfl
@[simp] theorem clearResult_pos (s : State) : (clearResult s).pos = s.pos := rfl
@[simp] theorem clearResult_eof (s : State) : (clearResult s).eof = s.eof := rfl
@[simp] theorem clearResult_wp (s : State) : (clearResult s).wp = s.wp := rfl
@[simp] theorem clearResult_regs (s : State) : (clearResult s).regs = s.regs := rfl
@[simp] theorem clearResult_cas (s : State) : (clearResult s).cas = s.cas := rfl
@[simp] theorem clearResult_out (s : State) : (clearResult s).out = s.out := rfl
@[simp] theorem clearResult_stage (s : State) : (clearResult s).stage = s.stage := rfl
@[simp] theorem clearResult_further (s : State) : (clearResult s).further = s.further := rfl
@[simp] theorem clearResult_prog (s : State) : (clearResult s).prog = none := rfl
@[simp] theorem clearResult_casTainted (s : State) : (clearResult s).casTainted = false := rfl
@[simp] theorem clearResult_casEpoch (s : State) : (clearResult s).casEpoch = s.casEpoch := rfl
@[simp] theorem clearResult_draws (s : State) : (clearResult s).draws = s.draws := rfl
@[simp] theorem clearResult_trace (s : State) : (clearResult s).trace = [] := rfl
@[simp] theorem clearResult_errInfo (s : State) : (clearResult s).errInfo = none := rfl
@[simp] theorem clearResult_readData (s : State) : (clearResult s).readData = s.readData := rfl
@[simp] theorem clearResult_schedule (s : State) : (clearResult s).schedule = s.schedule := rfl

/-! BAD_CONFIG (R305). -/

@[simp] theorem rejectConfig_cfg (s : State) : (rejectConfig s).cfg = s.cfg := rfl
@[simp] theorem rejectConfig_status (s : State) : (rejectConfig s).status = { Status.clear with err := true, errcode := .badConfig, done := true } := rfl
@[simp] theorem rejectConfig_baud (s : State) : (rejectConfig s).baud = s.baud := rfl
@[simp] theorem rejectConfig_leadinS (s : State) : (rejectConfig s).leadinS = s.leadinS := rfl
@[simp] theorem rejectConfig_casLen (s : State) : (rejectConfig s).casLen = s.casLen := rfl
@[simp] theorem rejectConfig_outLen (s : State) : (rejectConfig s).outLen = 0 := rfl
@[simp] theorem rejectConfig_st (s : State) : (rejectConfig s).st = s.st := rfl
@[simp] theorem rejectConfig_cur (s : State) : (rejectConfig s).cur = s.cur := rfl
@[simp] theorem rejectConfig_pos (s : State) : (rejectConfig s).pos = s.pos := rfl
@[simp] theorem rejectConfig_eof (s : State) : (rejectConfig s).eof = s.eof := rfl
@[simp] theorem rejectConfig_wp (s : State) : (rejectConfig s).wp = s.wp := rfl
@[simp] theorem rejectConfig_regs (s : State) : (rejectConfig s).regs = s.regs := rfl
@[simp] theorem rejectConfig_cas (s : State) : (rejectConfig s).cas = s.cas := rfl
@[simp] theorem rejectConfig_out (s : State) : (rejectConfig s).out = s.out := rfl
@[simp] theorem rejectConfig_stage (s : State) : (rejectConfig s).stage = s.stage := rfl
@[simp] theorem rejectConfig_further (s : State) : (rejectConfig s).further = s.further := rfl
@[simp] theorem rejectConfig_prog (s : State) : (rejectConfig s).prog = none := rfl
@[simp] theorem rejectConfig_casTainted (s : State) : (rejectConfig s).casTainted = false := rfl
@[simp] theorem rejectConfig_casEpoch (s : State) : (rejectConfig s).casEpoch = s.casEpoch := rfl
@[simp] theorem rejectConfig_draws (s : State) : (rejectConfig s).draws = s.draws := rfl
@[simp] theorem rejectConfig_trace (s : State) : (rejectConfig s).trace = [] := rfl
@[simp] theorem rejectConfig_errInfo (s : State) : (rejectConfig s).errInfo = none := rfl
@[simp] theorem rejectConfig_readData (s : State) : (rejectConfig s).readData = s.readData := rfl
@[simp] theorem rejectConfig_schedule (s : State) : (rejectConfig s).schedule = s.schedule := rfl

/-! The run start (R202). -/

@[simp] theorem beginRun_cfg (s : State) : (beginRun s).cfg = s.cfg := rfl
@[simp] theorem beginRun_status (s : State) : (beginRun s).status = { Status.clear with busy := true } := rfl
@[simp] theorem beginRun_baud (s : State) : (beginRun s).baud = s.baud := rfl
@[simp] theorem beginRun_leadinS (s : State) : (beginRun s).leadinS = s.leadinS := rfl
@[simp] theorem beginRun_casLen (s : State) : (beginRun s).casLen = s.casLen := rfl
@[simp] theorem beginRun_outLen (s : State) : (beginRun s).outLen = 0 := rfl
@[simp] theorem beginRun_st (s : State) : (beginRun s).st = .scanning := rfl
@[simp] theorem beginRun_cur (s : State) : (beginRun s).cur = .unknown := rfl
@[simp] theorem beginRun_pos (s : State) : (beginRun s).pos = 0 := rfl
@[simp] theorem beginRun_eof (s : State) : (beginRun s).eof = false := rfl
@[simp] theorem beginRun_wp (s : State) : (beginRun s).wp = 44 := rfl
@[simp] theorem beginRun_regs (s : State) : (beginRun s).regs = s.regs := rfl
@[simp] theorem beginRun_cas (s : State) : (beginRun s).cas = s.cas := rfl
@[simp] theorem beginRun_out (s : State) : (beginRun s).out = s.out := rfl
@[simp] theorem beginRun_stage (s : State) : (beginRun s).stage = s.stage := rfl
@[simp] theorem beginRun_further (s : State) : (beginRun s).further = s.further := rfl
@[simp] theorem beginRun_prog (s : State) : (beginRun s).prog = none := rfl
@[simp] theorem beginRun_casTainted (s : State) : (beginRun s).casTainted = false := rfl
@[simp] theorem beginRun_casEpoch (s : State) : (beginRun s).casEpoch = s.casEpoch := rfl
@[simp] theorem beginRun_draws (s : State) : (beginRun s).draws = s.draws := rfl
@[simp] theorem beginRun_trace (s : State) : (beginRun s).trace = [] := rfl
@[simp] theorem beginRun_errInfo (s : State) : (beginRun s).errInfo = none := rfl
@[simp] theorem beginRun_readData (s : State) : (beginRun s).readData = s.readData := rfl
@[simp] theorem beginRun_schedule (s : State) : (beginRun s).schedule = s.schedule := rfl

/-! Back to Scanning (R215). -/

@[simp] theorem backToScanning_cfg (s : State) : (backToScanning s).cfg = s.cfg := rfl
@[simp] theorem backToScanning_status (s : State) : (backToScanning s).status = s.status := rfl
@[simp] theorem backToScanning_baud (s : State) : (backToScanning s).baud = s.baud := rfl
@[simp] theorem backToScanning_leadinS (s : State) : (backToScanning s).leadinS = s.leadinS := rfl
@[simp] theorem backToScanning_casLen (s : State) : (backToScanning s).casLen = s.casLen := rfl
@[simp] theorem backToScanning_outLen (s : State) : (backToScanning s).outLen = s.outLen := rfl
@[simp] theorem backToScanning_st (s : State) : (backToScanning s).st = .scanning := rfl
@[simp] theorem backToScanning_cur (s : State) : (backToScanning s).cur = s.cur := rfl
@[simp] theorem backToScanning_pos (s : State) : (backToScanning s).pos = s.pos := rfl
@[simp] theorem backToScanning_eof (s : State) : (backToScanning s).eof = s.eof := rfl
@[simp] theorem backToScanning_wp (s : State) : (backToScanning s).wp = s.wp := rfl
@[simp] theorem backToScanning_regs (s : State) : (backToScanning s).regs = s.regs := rfl
@[simp] theorem backToScanning_cas (s : State) : (backToScanning s).cas = s.cas := rfl
@[simp] theorem backToScanning_out (s : State) : (backToScanning s).out = s.out := rfl
@[simp] theorem backToScanning_stage (s : State) : (backToScanning s).stage = s.stage := rfl
@[simp] theorem backToScanning_further (s : State) : (backToScanning s).further = s.further := rfl
@[simp] theorem backToScanning_prog (s : State) : (backToScanning s).prog = s.prog := rfl
@[simp] theorem backToScanning_casTainted (s : State) : (backToScanning s).casTainted = s.casTainted := rfl
@[simp] theorem backToScanning_casEpoch (s : State) : (backToScanning s).casEpoch = s.casEpoch := rfl
@[simp] theorem backToScanning_draws (s : State) : (backToScanning s).draws = s.draws := rfl
@[simp] theorem backToScanning_trace (s : State) : (backToScanning s).trace = s.trace := rfl
@[simp] theorem backToScanning_errInfo (s : State) : (backToScanning s).errInfo = s.errInfo := rfl
@[simp] theorem backToScanning_readData (s : State) : (backToScanning s).readData = s.readData := rfl
@[simp] theorem backToScanning_schedule (s : State) : (backToScanning s).schedule = s.schedule := rfl

/-! A further chunk (R213, R214). -/

@[simp] theorem nextChunk_cfg (p : Word) (s : State) : (nextChunk p s).cfg = s.cfg := rfl
@[simp] theorem nextChunk_status (p : Word) (s : State) : (nextChunk p s).status = s.status := rfl
@[simp] theorem nextChunk_baud (p : Word) (s : State) : (nextChunk p s).baud = s.baud := rfl
@[simp] theorem nextChunk_leadinS (p : Word) (s : State) : (nextChunk p s).leadinS = s.leadinS := rfl
@[simp] theorem nextChunk_casLen (p : Word) (s : State) : (nextChunk p s).casLen = s.casLen := rfl
@[simp] theorem nextChunk_outLen (p : Word) (s : State) : (nextChunk p s).outLen = s.outLen := rfl
@[simp] theorem nextChunk_st (p : Word) (s : State) : (nextChunk p s).st = s.st := rfl
@[simp] theorem nextChunk_cur (p : Word) (s : State) : (nextChunk p s).cur = s.cur := rfl
@[simp] theorem nextChunk_pos (p : Word) (s : State) : (nextChunk p s).pos = p := rfl
@[simp] theorem nextChunk_eof (p : Word) (s : State) : (nextChunk p s).eof = s.eof := rfl
@[simp] theorem nextChunk_wp (p : Word) (s : State) : (nextChunk p s).wp = s.wp := rfl
@[simp] theorem nextChunk_regs (p : Word) (s : State) : (nextChunk p s).regs = s.regs := rfl
@[simp] theorem nextChunk_cas (p : Word) (s : State) : (nextChunk p s).cas = s.cas := rfl
@[simp] theorem nextChunk_out (p : Word) (s : State) : (nextChunk p s).out = s.out := rfl
@[simp] theorem nextChunk_stage (p : Word) (s : State) : (nextChunk p s).stage = .silence := rfl
@[simp] theorem nextChunk_further (p : Word) (s : State) : (nextChunk p s).further = true := rfl
@[simp] theorem nextChunk_prog (p : Word) (s : State) : (nextChunk p s).prog = s.prog := rfl
@[simp] theorem nextChunk_casTainted (p : Word) (s : State) : (nextChunk p s).casTainted = s.casTainted := rfl
@[simp] theorem nextChunk_casEpoch (p : Word) (s : State) : (nextChunk p s).casEpoch = s.casEpoch := rfl
@[simp] theorem nextChunk_draws (p : Word) (s : State) : (nextChunk p s).draws = s.draws := rfl
@[simp] theorem nextChunk_trace (p : Word) (s : State) : (nextChunk p s).trace = s.trace := rfl
@[simp] theorem nextChunk_errInfo (p : Word) (s : State) : (nextChunk p s).errInfo = s.errInfo := rfl
@[simp] theorem nextChunk_readData (p : Word) (s : State) : (nextChunk p s).readData = s.readData := rfl
@[simp] theorem nextChunk_schedule (p : Word) (s : State) : (nextChunk p s).schedule = s.schedule := rfl

/-! A free value (R40). -/

@[simp] theorem drawByte_cfg (s : State) : ((drawByte s).2).cfg = s.cfg := rfl
@[simp] theorem drawByte_status (s : State) : ((drawByte s).2).status = s.status := rfl
@[simp] theorem drawByte_baud (s : State) : ((drawByte s).2).baud = s.baud := rfl
@[simp] theorem drawByte_leadinS (s : State) : ((drawByte s).2).leadinS = s.leadinS := rfl
@[simp] theorem drawByte_casLen (s : State) : ((drawByte s).2).casLen = s.casLen := rfl
@[simp] theorem drawByte_outLen (s : State) : ((drawByte s).2).outLen = s.outLen := rfl
@[simp] theorem drawByte_st (s : State) : ((drawByte s).2).st = s.st := rfl
@[simp] theorem drawByte_cur (s : State) : ((drawByte s).2).cur = s.cur := rfl
@[simp] theorem drawByte_pos (s : State) : ((drawByte s).2).pos = s.pos := rfl
@[simp] theorem drawByte_eof (s : State) : ((drawByte s).2).eof = s.eof := rfl
@[simp] theorem drawByte_wp (s : State) : ((drawByte s).2).wp = s.wp := rfl
@[simp] theorem drawByte_regs (s : State) : ((drawByte s).2).regs = s.regs := rfl
@[simp] theorem drawByte_cas (s : State) : ((drawByte s).2).cas = s.cas := rfl
@[simp] theorem drawByte_out (s : State) : ((drawByte s).2).out = s.out := rfl
@[simp] theorem drawByte_stage (s : State) : ((drawByte s).2).stage = s.stage := rfl
@[simp] theorem drawByte_further (s : State) : ((drawByte s).2).further = s.further := rfl
@[simp] theorem drawByte_prog (s : State) : ((drawByte s).2).prog = s.prog := rfl
@[simp] theorem drawByte_casTainted (s : State) : ((drawByte s).2).casTainted = s.casTainted := rfl
@[simp] theorem drawByte_casEpoch (s : State) : ((drawByte s).2).casEpoch = s.casEpoch := rfl
@[simp] theorem drawByte_draws (s : State) : ((drawByte s).2).draws = s.draws + 1 := rfl
@[simp] theorem drawByte_trace (s : State) : ((drawByte s).2).trace = s.trace := rfl
@[simp] theorem drawByte_errInfo (s : State) : ((drawByte s).2).errInfo = s.errInfo := rfl
@[simp] theorem drawByte_readData (s : State) : ((drawByte s).2).readData = s.readData := rfl
@[simp] theorem drawByte_schedule (s : State) : ((drawByte s).2).schedule = s.schedule := rfl

/-! A free value (R40). -/

@[simp] theorem drawWord_cfg (s : State) : ((drawWord s).2).cfg = s.cfg := rfl
@[simp] theorem drawWord_status (s : State) : ((drawWord s).2).status = s.status := rfl
@[simp] theorem drawWord_baud (s : State) : ((drawWord s).2).baud = s.baud := rfl
@[simp] theorem drawWord_leadinS (s : State) : ((drawWord s).2).leadinS = s.leadinS := rfl
@[simp] theorem drawWord_casLen (s : State) : ((drawWord s).2).casLen = s.casLen := rfl
@[simp] theorem drawWord_outLen (s : State) : ((drawWord s).2).outLen = s.outLen := rfl
@[simp] theorem drawWord_st (s : State) : ((drawWord s).2).st = s.st := rfl
@[simp] theorem drawWord_cur (s : State) : ((drawWord s).2).cur = s.cur := rfl
@[simp] theorem drawWord_pos (s : State) : ((drawWord s).2).pos = s.pos := rfl
@[simp] theorem drawWord_eof (s : State) : ((drawWord s).2).eof = s.eof := rfl
@[simp] theorem drawWord_wp (s : State) : ((drawWord s).2).wp = s.wp := rfl
@[simp] theorem drawWord_regs (s : State) : ((drawWord s).2).regs = s.regs := rfl
@[simp] theorem drawWord_cas (s : State) : ((drawWord s).2).cas = s.cas := rfl
@[simp] theorem drawWord_out (s : State) : ((drawWord s).2).out = s.out := rfl
@[simp] theorem drawWord_stage (s : State) : ((drawWord s).2).stage = s.stage := rfl
@[simp] theorem drawWord_further (s : State) : ((drawWord s).2).further = s.further := rfl
@[simp] theorem drawWord_prog (s : State) : ((drawWord s).2).prog = s.prog := rfl
@[simp] theorem drawWord_casTainted (s : State) : ((drawWord s).2).casTainted = s.casTainted := rfl
@[simp] theorem drawWord_casEpoch (s : State) : ((drawWord s).2).casEpoch = s.casEpoch := rfl
@[simp] theorem drawWord_draws (s : State) : ((drawWord s).2).draws = s.draws + 1 := rfl
@[simp] theorem drawWord_trace (s : State) : ((drawWord s).2).trace = s.trace := rfl
@[simp] theorem drawWord_errInfo (s : State) : ((drawWord s).2).errInfo = s.errInfo := rfl
@[simp] theorem drawWord_readData (s : State) : ((drawWord s).2).readData = s.readData := rfl
@[simp] theorem drawWord_schedule (s : State) : ((drawWord s).2).schedule = s.schedule := rfl

/-! A free value (R40). -/

@[simp] theorem drawBool_cfg (s : State) : ((drawBool s).2).cfg = s.cfg := rfl
@[simp] theorem drawBool_status (s : State) : ((drawBool s).2).status = s.status := rfl
@[simp] theorem drawBool_baud (s : State) : ((drawBool s).2).baud = s.baud := rfl
@[simp] theorem drawBool_leadinS (s : State) : ((drawBool s).2).leadinS = s.leadinS := rfl
@[simp] theorem drawBool_casLen (s : State) : ((drawBool s).2).casLen = s.casLen := rfl
@[simp] theorem drawBool_outLen (s : State) : ((drawBool s).2).outLen = s.outLen := rfl
@[simp] theorem drawBool_st (s : State) : ((drawBool s).2).st = s.st := rfl
@[simp] theorem drawBool_cur (s : State) : ((drawBool s).2).cur = s.cur := rfl
@[simp] theorem drawBool_pos (s : State) : ((drawBool s).2).pos = s.pos := rfl
@[simp] theorem drawBool_eof (s : State) : ((drawBool s).2).eof = s.eof := rfl
@[simp] theorem drawBool_wp (s : State) : ((drawBool s).2).wp = s.wp := rfl
@[simp] theorem drawBool_regs (s : State) : ((drawBool s).2).regs = s.regs := rfl
@[simp] theorem drawBool_cas (s : State) : ((drawBool s).2).cas = s.cas := rfl
@[simp] theorem drawBool_out (s : State) : ((drawBool s).2).out = s.out := rfl
@[simp] theorem drawBool_stage (s : State) : ((drawBool s).2).stage = s.stage := rfl
@[simp] theorem drawBool_further (s : State) : ((drawBool s).2).further = s.further := rfl
@[simp] theorem drawBool_prog (s : State) : ((drawBool s).2).prog = s.prog := rfl
@[simp] theorem drawBool_casTainted (s : State) : ((drawBool s).2).casTainted = s.casTainted := rfl
@[simp] theorem drawBool_casEpoch (s : State) : ((drawBool s).2).casEpoch = s.casEpoch := rfl
@[simp] theorem drawBool_draws (s : State) : ((drawBool s).2).draws = s.draws + 1 := rfl
@[simp] theorem drawBool_trace (s : State) : ((drawBool s).2).trace = s.trace := rfl
@[simp] theorem drawBool_errInfo (s : State) : ((drawBool s).2).errInfo = s.errInfo := rfl
@[simp] theorem drawBool_readData (s : State) : ((drawBool s).2).readData = s.readData := rfl
@[simp] theorem drawBool_schedule (s : State) : ((drawBool s).2).schedule = s.schedule := rfl

/-! The power-on reset (R340). -/

@[simp] theorem powerOnReset_cfg (s : State) : (powerOnReset s).cfg = s.cfg := rfl
@[simp] theorem powerOnReset_status (s : State) : (powerOnReset s).status = Status.clear := rfl
@[simp] theorem powerOnReset_baud (s : State) : (powerOnReset s).baud = 1200 := rfl
@[simp] theorem powerOnReset_leadinS (s : State) : (powerOnReset s).leadinS = 0 := rfl
@[simp] theorem powerOnReset_casLen (s : State) : (powerOnReset s).casLen = 0 := rfl
@[simp] theorem powerOnReset_outLen (s : State) : (powerOnReset s).outLen = 0 := rfl
@[simp] theorem powerOnReset_st (s : State) : (powerOnReset s).st = .idle := rfl
@[simp] theorem powerOnReset_cur (s : State) : (powerOnReset s).cur = .unknown := rfl
@[simp] theorem powerOnReset_pos (s : State) : (powerOnReset s).pos = 0 := rfl
@[simp] theorem powerOnReset_eof (s : State) : (powerOnReset s).eof = false := rfl
@[simp] theorem powerOnReset_wp (s : State) : (powerOnReset s).wp = 44 := rfl
@[simp] theorem powerOnReset_regs (s : State) : (powerOnReset s).regs = Transient.initial := rfl
@[simp] theorem powerOnReset_cas (s : State) : (powerOnReset s).cas = [] := rfl
@[simp] theorem powerOnReset_out (s : State) : (powerOnReset s).out = [] := rfl
@[simp] theorem powerOnReset_stage (s : State) : (powerOnReset s).stage = .silence := rfl
@[simp] theorem powerOnReset_further (s : State) : (powerOnReset s).further = false := rfl
@[simp] theorem powerOnReset_prog (s : State) : (powerOnReset s).prog = none := rfl
@[simp] theorem powerOnReset_casTainted (s : State) : (powerOnReset s).casTainted = false := rfl
@[simp] theorem powerOnReset_casEpoch (s : State) : (powerOnReset s).casEpoch = s.draws + 1 := rfl
@[simp] theorem powerOnReset_draws (s : State) : (powerOnReset s).draws = s.draws + 1 := rfl
@[simp] theorem powerOnReset_trace (s : State) : (powerOnReset s).trace = [] := rfl
@[simp] theorem powerOnReset_errInfo (s : State) : (powerOnReset s).errInfo = none := rfl
@[simp] theorem powerOnReset_readData (s : State) : (powerOnReset s).readData = 0 := rfl
@[simp] theorem powerOnReset_schedule (s : State) : (powerOnReset s).schedule = s.schedule := rfl

/-! Recording the mode (R209) and the EOF flag (R211). -/

@[simp] theorem recordMode_cfg (t : Mode) (s : State) : (recordMode t s).cfg = s.cfg := by
  unfold recordMode; split <;> rfl
@[simp] theorem recordMode_baud (t : Mode) (s : State) : (recordMode t s).baud = s.baud := by
  unfold recordMode; split <;> rfl
@[simp] theorem recordMode_leadinS (t : Mode) (s : State) : (recordMode t s).leadinS = s.leadinS := by
  unfold recordMode; split <;> rfl
@[simp] theorem recordMode_casLen (t : Mode) (s : State) : (recordMode t s).casLen = s.casLen := by
  unfold recordMode; split <;> rfl
@[simp] theorem recordMode_outLen (t : Mode) (s : State) : (recordMode t s).outLen = s.outLen := by
  unfold recordMode; split <;> rfl
@[simp] theorem recordMode_st (t : Mode) (s : State) : (recordMode t s).st = s.st := by
  unfold recordMode; split <;> rfl
@[simp] theorem recordMode_cur (t : Mode) (s : State) : (recordMode t s).cur = s.cur := by
  unfold recordMode; split <;> rfl
@[simp] theorem recordMode_pos (t : Mode) (s : State) : (recordMode t s).pos = s.pos := by
  unfold recordMode; split <;> rfl
@[simp] theorem recordMode_eof (t : Mode) (s : State) : (recordMode t s).eof = s.eof := by
  unfold recordMode; split <;> rfl
@[simp] theorem recordMode_wp (t : Mode) (s : State) : (recordMode t s).wp = s.wp := by
  unfold recordMode; split <;> rfl
@[simp] theorem recordMode_regs (t : Mode) (s : State) : (recordMode t s).regs = s.regs := by
  unfold recordMode; split <;> rfl
@[simp] theorem recordMode_cas (t : Mode) (s : State) : (recordMode t s).cas = s.cas := by
  unfold recordMode; split <;> rfl
@[simp] theorem recordMode_out (t : Mode) (s : State) : (recordMode t s).out = s.out := by
  unfold recordMode; split <;> rfl
@[simp] theorem recordMode_stage (t : Mode) (s : State) : (recordMode t s).stage = s.stage := by
  unfold recordMode; split <;> rfl
@[simp] theorem recordMode_further (t : Mode) (s : State) : (recordMode t s).further = s.further := by
  unfold recordMode; split <;> rfl
@[simp] theorem recordMode_prog (t : Mode) (s : State) : (recordMode t s).prog = s.prog := by
  unfold recordMode; split <;> rfl
@[simp] theorem recordMode_casTainted (t : Mode) (s : State) : (recordMode t s).casTainted = s.casTainted := by
  unfold recordMode; split <;> rfl
@[simp] theorem recordMode_casEpoch (t : Mode) (s : State) : (recordMode t s).casEpoch = s.casEpoch := by
  unfold recordMode; split <;> rfl
@[simp] theorem recordMode_draws (t : Mode) (s : State) : (recordMode t s).draws = s.draws := by
  unfold recordMode; split <;> rfl
@[simp] theorem recordMode_trace (t : Mode) (s : State) : (recordMode t s).trace = s.trace := by
  unfold recordMode; split <;> rfl
@[simp] theorem recordMode_errInfo (t : Mode) (s : State) : (recordMode t s).errInfo = s.errInfo := by
  unfold recordMode; split <;> rfl
@[simp] theorem recordMode_readData (t : Mode) (s : State) : (recordMode t s).readData = s.readData := by
  unfold recordMode; split <;> rfl
@[simp] theorem recordMode_schedule (t : Mode) (s : State) : (recordMode t s).schedule = s.schedule := by
  unfold recordMode; split <;> rfl
@[simp] theorem noteEof_cfg (b : Byte) (s : State) : (noteEof b s).cfg = s.cfg := by
  unfold noteEof; split <;> rfl
@[simp] theorem noteEof_status (b : Byte) (s : State) : (noteEof b s).status = s.status := by
  unfold noteEof; split <;> rfl
@[simp] theorem noteEof_baud (b : Byte) (s : State) : (noteEof b s).baud = s.baud := by
  unfold noteEof; split <;> rfl
@[simp] theorem noteEof_leadinS (b : Byte) (s : State) : (noteEof b s).leadinS = s.leadinS := by
  unfold noteEof; split <;> rfl
@[simp] theorem noteEof_casLen (b : Byte) (s : State) : (noteEof b s).casLen = s.casLen := by
  unfold noteEof; split <;> rfl
@[simp] theorem noteEof_outLen (b : Byte) (s : State) : (noteEof b s).outLen = s.outLen := by
  unfold noteEof; split <;> rfl
@[simp] theorem noteEof_st (b : Byte) (s : State) : (noteEof b s).st = s.st := by
  unfold noteEof; split <;> rfl
@[simp] theorem noteEof_cur (b : Byte) (s : State) : (noteEof b s).cur = s.cur := by
  unfold noteEof; split <;> rfl
@[simp] theorem noteEof_pos (b : Byte) (s : State) : (noteEof b s).pos = s.pos := by
  unfold noteEof; split <;> rfl
@[simp] theorem noteEof_wp (b : Byte) (s : State) : (noteEof b s).wp = s.wp := by
  unfold noteEof; split <;> rfl
@[simp] theorem noteEof_regs (b : Byte) (s : State) : (noteEof b s).regs = s.regs := by
  unfold noteEof; split <;> rfl
@[simp] theorem noteEof_cas (b : Byte) (s : State) : (noteEof b s).cas = s.cas := by
  unfold noteEof; split <;> rfl
@[simp] theorem noteEof_out (b : Byte) (s : State) : (noteEof b s).out = s.out := by
  unfold noteEof; split <;> rfl
@[simp] theorem noteEof_stage (b : Byte) (s : State) : (noteEof b s).stage = s.stage := by
  unfold noteEof; split <;> rfl
@[simp] theorem noteEof_further (b : Byte) (s : State) : (noteEof b s).further = s.further := by
  unfold noteEof; split <;> rfl
@[simp] theorem noteEof_prog (b : Byte) (s : State) : (noteEof b s).prog = s.prog := by
  unfold noteEof; split <;> rfl
@[simp] theorem noteEof_casTainted (b : Byte) (s : State) : (noteEof b s).casTainted = s.casTainted := by
  unfold noteEof; split <;> rfl
@[simp] theorem noteEof_casEpoch (b : Byte) (s : State) : (noteEof b s).casEpoch = s.casEpoch := by
  unfold noteEof; split <;> rfl
@[simp] theorem noteEof_draws (b : Byte) (s : State) : (noteEof b s).draws = s.draws := by
  unfold noteEof; split <;> rfl
@[simp] theorem noteEof_trace (b : Byte) (s : State) : (noteEof b s).trace = s.trace := by
  unfold noteEof; split <;> rfl
@[simp] theorem noteEof_errInfo (b : Byte) (s : State) : (noteEof b s).errInfo = s.errInfo := by
  unfold noteEof; split <;> rfl
@[simp] theorem noteEof_readData (b : Byte) (s : State) : (noteEof b s).readData = s.readData := by
  unfold noteEof; split <;> rfl
@[simp] theorem noteEof_schedule (b : Byte) (s : State) : (noteEof b s).schedule = s.schedule := by
  unfold noteEof; split <;> rfl

@[simp] theorem recordMode_status (t : Mode) (s : State) :
    (recordMode t s).status = if s.status.modeValid then s.status else { s.status with mode := t, modeValid := true } := by
  unfold recordMode; split <;> rfl

@[simp] theorem noteEof_eof (b : Byte) (s : State) : (noteEof b s).eof = (s.eof || decide (b = eofByte)) := by
  unfold noteEof; split <;> simp [*]

/-! A CAS read, and a window of them, change the count of draws alone (R62). -/

@[simp] theorem casRead_cfg (a : Nat) (s : State) : (casRead a s).2.cfg = s.cfg := by
  unfold casRead; split <;> rfl
@[simp] theorem casRead_status (a : Nat) (s : State) : (casRead a s).2.status = s.status := by
  unfold casRead; split <;> rfl
@[simp] theorem casRead_baud (a : Nat) (s : State) : (casRead a s).2.baud = s.baud := by
  unfold casRead; split <;> rfl
@[simp] theorem casRead_leadinS (a : Nat) (s : State) : (casRead a s).2.leadinS = s.leadinS := by
  unfold casRead; split <;> rfl
@[simp] theorem casRead_casLen (a : Nat) (s : State) : (casRead a s).2.casLen = s.casLen := by
  unfold casRead; split <;> rfl
@[simp] theorem casRead_outLen (a : Nat) (s : State) : (casRead a s).2.outLen = s.outLen := by
  unfold casRead; split <;> rfl
@[simp] theorem casRead_st (a : Nat) (s : State) : (casRead a s).2.st = s.st := by
  unfold casRead; split <;> rfl
@[simp] theorem casRead_cur (a : Nat) (s : State) : (casRead a s).2.cur = s.cur := by
  unfold casRead; split <;> rfl
@[simp] theorem casRead_pos (a : Nat) (s : State) : (casRead a s).2.pos = s.pos := by
  unfold casRead; split <;> rfl
@[simp] theorem casRead_eof (a : Nat) (s : State) : (casRead a s).2.eof = s.eof := by
  unfold casRead; split <;> rfl
@[simp] theorem casRead_wp (a : Nat) (s : State) : (casRead a s).2.wp = s.wp := by
  unfold casRead; split <;> rfl
@[simp] theorem casRead_regs (a : Nat) (s : State) : (casRead a s).2.regs = s.regs := by
  unfold casRead; split <;> rfl
@[simp] theorem casRead_cas (a : Nat) (s : State) : (casRead a s).2.cas = s.cas := by
  unfold casRead; split <;> rfl
@[simp] theorem casRead_out (a : Nat) (s : State) : (casRead a s).2.out = s.out := by
  unfold casRead; split <;> rfl
@[simp] theorem casRead_stage (a : Nat) (s : State) : (casRead a s).2.stage = s.stage := by
  unfold casRead; split <;> rfl
@[simp] theorem casRead_further (a : Nat) (s : State) : (casRead a s).2.further = s.further := by
  unfold casRead; split <;> rfl
@[simp] theorem casRead_prog (a : Nat) (s : State) : (casRead a s).2.prog = s.prog := by
  unfold casRead; split <;> rfl
@[simp] theorem casRead_casTainted (a : Nat) (s : State) : (casRead a s).2.casTainted = s.casTainted := by
  unfold casRead; split <;> rfl
@[simp] theorem casRead_casEpoch (a : Nat) (s : State) : (casRead a s).2.casEpoch = s.casEpoch := by
  unfold casRead; split <;> rfl
@[simp] theorem casRead_trace (a : Nat) (s : State) : (casRead a s).2.trace = s.trace := by
  unfold casRead; split <;> rfl
@[simp] theorem casRead_errInfo (a : Nat) (s : State) : (casRead a s).2.errInfo = s.errInfo := by
  unfold casRead; split <;> rfl
@[simp] theorem casRead_readData (a : Nat) (s : State) : (casRead a s).2.readData = s.readData := by
  unfold casRead; split <;> rfl
@[simp] theorem casRead_schedule (a : Nat) (s : State) : (casRead a s).2.schedule = s.schedule := by
  unfold casRead; split <;> rfl
@[simp] theorem casWindow_cfg (n a : Nat) (s : State) : (casWindow n a s).2.cfg = s.cfg := by
  induction n generalizing a s with
  | zero => rfl
  | succ n ih => simp [casWindow, ih]
@[simp] theorem casWindow_status (n a : Nat) (s : State) : (casWindow n a s).2.status = s.status := by
  induction n generalizing a s with
  | zero => rfl
  | succ n ih => simp [casWindow, ih]
@[simp] theorem casWindow_baud (n a : Nat) (s : State) : (casWindow n a s).2.baud = s.baud := by
  induction n generalizing a s with
  | zero => rfl
  | succ n ih => simp [casWindow, ih]
@[simp] theorem casWindow_leadinS (n a : Nat) (s : State) : (casWindow n a s).2.leadinS = s.leadinS := by
  induction n generalizing a s with
  | zero => rfl
  | succ n ih => simp [casWindow, ih]
@[simp] theorem casWindow_casLen (n a : Nat) (s : State) : (casWindow n a s).2.casLen = s.casLen := by
  induction n generalizing a s with
  | zero => rfl
  | succ n ih => simp [casWindow, ih]
@[simp] theorem casWindow_outLen (n a : Nat) (s : State) : (casWindow n a s).2.outLen = s.outLen := by
  induction n generalizing a s with
  | zero => rfl
  | succ n ih => simp [casWindow, ih]
@[simp] theorem casWindow_st (n a : Nat) (s : State) : (casWindow n a s).2.st = s.st := by
  induction n generalizing a s with
  | zero => rfl
  | succ n ih => simp [casWindow, ih]
@[simp] theorem casWindow_cur (n a : Nat) (s : State) : (casWindow n a s).2.cur = s.cur := by
  induction n generalizing a s with
  | zero => rfl
  | succ n ih => simp [casWindow, ih]
@[simp] theorem casWindow_pos (n a : Nat) (s : State) : (casWindow n a s).2.pos = s.pos := by
  induction n generalizing a s with
  | zero => rfl
  | succ n ih => simp [casWindow, ih]
@[simp] theorem casWindow_eof (n a : Nat) (s : State) : (casWindow n a s).2.eof = s.eof := by
  induction n generalizing a s with
  | zero => rfl
  | succ n ih => simp [casWindow, ih]
@[simp] theorem casWindow_wp (n a : Nat) (s : State) : (casWindow n a s).2.wp = s.wp := by
  induction n generalizing a s with
  | zero => rfl
  | succ n ih => simp [casWindow, ih]
@[simp] theorem casWindow_regs (n a : Nat) (s : State) : (casWindow n a s).2.regs = s.regs := by
  induction n generalizing a s with
  | zero => rfl
  | succ n ih => simp [casWindow, ih]
@[simp] theorem casWindow_cas (n a : Nat) (s : State) : (casWindow n a s).2.cas = s.cas := by
  induction n generalizing a s with
  | zero => rfl
  | succ n ih => simp [casWindow, ih]
@[simp] theorem casWindow_out (n a : Nat) (s : State) : (casWindow n a s).2.out = s.out := by
  induction n generalizing a s with
  | zero => rfl
  | succ n ih => simp [casWindow, ih]
@[simp] theorem casWindow_stage (n a : Nat) (s : State) : (casWindow n a s).2.stage = s.stage := by
  induction n generalizing a s with
  | zero => rfl
  | succ n ih => simp [casWindow, ih]
@[simp] theorem casWindow_further (n a : Nat) (s : State) : (casWindow n a s).2.further = s.further := by
  induction n generalizing a s with
  | zero => rfl
  | succ n ih => simp [casWindow, ih]
@[simp] theorem casWindow_prog (n a : Nat) (s : State) : (casWindow n a s).2.prog = s.prog := by
  induction n generalizing a s with
  | zero => rfl
  | succ n ih => simp [casWindow, ih]
@[simp] theorem casWindow_casTainted (n a : Nat) (s : State) : (casWindow n a s).2.casTainted = s.casTainted := by
  induction n generalizing a s with
  | zero => rfl
  | succ n ih => simp [casWindow, ih]
@[simp] theorem casWindow_casEpoch (n a : Nat) (s : State) : (casWindow n a s).2.casEpoch = s.casEpoch := by
  induction n generalizing a s with
  | zero => rfl
  | succ n ih => simp [casWindow, ih]
@[simp] theorem casWindow_trace (n a : Nat) (s : State) : (casWindow n a s).2.trace = s.trace := by
  induction n generalizing a s with
  | zero => rfl
  | succ n ih => simp [casWindow, ih]
@[simp] theorem casWindow_errInfo (n a : Nat) (s : State) : (casWindow n a s).2.errInfo = s.errInfo := by
  induction n generalizing a s with
  | zero => rfl
  | succ n ih => simp [casWindow, ih]
@[simp] theorem casWindow_readData (n a : Nat) (s : State) : (casWindow n a s).2.readData = s.readData := by
  induction n generalizing a s with
  | zero => rfl
  | succ n ih => simp [casWindow, ih]
@[simp] theorem casWindow_schedule (n a : Nat) (s : State) : (casWindow n a s).2.schedule = s.schedule := by
  induction n generalizing a s with
  | zero => rfl
  | succ n ih => simp [casWindow, ih]

/-! A micro-operation's emissions change OUT memory, `wp` and the transient registers, and an error what R304 says. -/

@[simp] theorem emitAll_cfg (es : List Emission) (r : Transient) (s : State) : (emitAll es r s).cfg = s.cfg := by
  unfold emitAll; dsimp only; split <;> rfl
@[simp] theorem emitAll_baud (es : List Emission) (r : Transient) (s : State) : (emitAll es r s).baud = s.baud := by
  unfold emitAll; dsimp only; split <;> rfl
@[simp] theorem emitAll_leadinS (es : List Emission) (r : Transient) (s : State) : (emitAll es r s).leadinS = s.leadinS := by
  unfold emitAll; dsimp only; split <;> rfl
@[simp] theorem emitAll_casLen (es : List Emission) (r : Transient) (s : State) : (emitAll es r s).casLen = s.casLen := by
  unfold emitAll; dsimp only; split <;> rfl
@[simp] theorem emitAll_cur (es : List Emission) (r : Transient) (s : State) : (emitAll es r s).cur = s.cur := by
  unfold emitAll; dsimp only; split <;> rfl
@[simp] theorem emitAll_pos (es : List Emission) (r : Transient) (s : State) : (emitAll es r s).pos = s.pos := by
  unfold emitAll; dsimp only; split <;> rfl
@[simp] theorem emitAll_eof (es : List Emission) (r : Transient) (s : State) : (emitAll es r s).eof = s.eof := by
  unfold emitAll; dsimp only; split <;> rfl
@[simp] theorem emitAll_cas (es : List Emission) (r : Transient) (s : State) : (emitAll es r s).cas = s.cas := by
  unfold emitAll; dsimp only; split <;> rfl
@[simp] theorem emitAll_stage (es : List Emission) (r : Transient) (s : State) : (emitAll es r s).stage = s.stage := by
  unfold emitAll; dsimp only; split <;> rfl
@[simp] theorem emitAll_further (es : List Emission) (r : Transient) (s : State) : (emitAll es r s).further = s.further := by
  unfold emitAll; dsimp only; split <;> rfl
@[simp] theorem emitAll_casTainted (es : List Emission) (r : Transient) (s : State) : (emitAll es r s).casTainted = s.casTainted := by
  unfold emitAll; dsimp only; split <;> rfl
@[simp] theorem emitAll_casEpoch (es : List Emission) (r : Transient) (s : State) : (emitAll es r s).casEpoch = s.casEpoch := by
  unfold emitAll; dsimp only; split <;> rfl
@[simp] theorem emitAll_draws (es : List Emission) (r : Transient) (s : State) : (emitAll es r s).draws = s.draws := by
  unfold emitAll; dsimp only; split <;> rfl
@[simp] theorem emitAll_trace (es : List Emission) (r : Transient) (s : State) : (emitAll es r s).trace = s.trace := by
  unfold emitAll; dsimp only; split <;> rfl
@[simp] theorem emitAll_readData (es : List Emission) (r : Transient) (s : State) : (emitAll es r s).readData = s.readData := by
  unfold emitAll; dsimp only; split <;> rfl
@[simp] theorem emitAll_schedule (es : List Emission) (r : Transient) (s : State) : (emitAll es r s).schedule = s.schedule := by
  unfold emitAll; dsimp only; split <;> rfl

end Sys2Proof.Laws
end

