-- ==== Sys2Proof/Laws/Emit.lean ====
section
/-! SUPPORT. What the sample accumulator does: one lemma when every sample fits, one when one does not, and that
storing a micro-operation's samples in one pass is emitting them one by one (R122, R125, R126). -/

namespace Sys2Proof.Laws

open Sys2Proof.Machine

@[simp] theorem samplesOf_length (es : List Emission) : (samplesOf es).length = es.length := by
  simp [samplesOf]

@[simp] theorem samplesOf_append (es fs : List Emission) : samplesOf (es ++ fs) = samplesOf es ++ samplesOf fs := by
  simp [samplesOf]

/-- Every sample fits: they stand at `wp` onward and `wp` moves past them (R125). -/
theorem emitAll_fits (es : List Emission) (fin : Transient) (s : State)
    (h : s.wp.toNat + es.length ≤ s.cfg.outCap.toNat) :
    emitAll es fin s = { s with
      out := s.out.writeRun s.wp.toNat (samplesOf es)
      wp := s.wp + BitVec.ofNat 32 es.length
      regs := fin } := by
  unfold emitAll
  dsimp only
  rw [List.drop_eq_nil_of_le (by omega), List.take_of_length_le (by omega), samplesOf_length]

/-- A sample does not fit: those before it stand at `wp` onward up to `OUT_CAP - 1`, and OUTPUT_OVERFLOW is raised at
`wp = OUT_CAP` (R122, R126, R303). -/
theorem emitAll_overflow (es : List Emission) (fin : Transient) (s : State) (hwp : s.wp.toNat ≤ s.cfg.outCap.toNat)
    (h : s.cfg.outCap.toNat < s.wp.toNat + es.length) :
    ∃ r, emitAll es fin s = raiseError .outputOverflow (some (.writePointer s.cfg.outCap)) { s with
      out := s.out.writeRun s.wp.toNat ((samplesOf es).take (s.cfg.outCap.toNat - s.wp.toNat))
      wp := s.cfg.outCap
      regs := r } := by
  have hlen : (samplesOf (es.take (s.cfg.outCap.toNat - s.wp.toNat))).length = s.cfg.outCap.toNat - s.wp.toNat := by
    rw [samplesOf_length, List.length_take]
    omega
  have hw : s.wp + BitVec.ofNat 32 (s.cfg.outCap.toNat - s.wp.toNat) = s.cfg.outCap := by
    apply BitVec.eq_of_toNat_eq
    rw [BitVec.toNat_add, BitVec.toNat_ofNat]
    have := s.cfg.outCap.isLt
    omega
  unfold emitAll
  dsimp only
  rw [hlen, hw]
  rcases hd : es.drop (s.cfg.outCap.toNat - s.wp.toNat) with _ | ⟨e, rest⟩
  · rw [List.drop_eq_nil_iff] at hd
    omega
  · exact ⟨e.regs, by rw [samplesOf, samplesOf, List.map_take]⟩

theorem emitAll_cons (e : Emission) (es : List Emission) (fin : Transient) (s : State) :
    emitAll (e :: es) fin s =
      match emit e.value { s with regs := e.regs } with
      | .ok t => emitAll es fin t
      | .error t => t := by
  unfold emit
  dsimp only
  by_cases h : s.cfg.outCap.toNat ≤ s.wp.toNat
  · rw [if_pos h]
    unfold emitAll
    dsimp only
    rw [show s.cfg.outCap.toNat - s.wp.toNat = 0 by omega]
    simp [samplesOf]
  · rw [if_neg h]
    have hwp : (s.wp + 1).toNat = s.wp.toNat + 1 := by
      have := s.cfg.outCap.isLt
      rw [BitVec.toNat_add, show (1 : Word).toNat = 1 from rfl]
      omega
    unfold emitAll
    dsimp only
    rw [hwp, show s.cfg.outCap.toNat - s.wp.toNat = (s.cfg.outCap.toNat - (s.wp.toNat + 1)) + 1 by omega,
      List.take_succ_cons, List.drop_succ_cons]
    have hs : ∀ l : List Emission, samplesOf (e :: l) = e.value :: samplesOf l := fun _ => rfl
    rw [hs, memory_writeRun_cons]
    have hadd : ∀ n : Nat, s.wp + BitVec.ofNat 32 (n + 1) = s.wp + 1 + BitVec.ofNat 32 n := fun n => by
      rw [Nat.add_comm n 1, BitVec.ofNat_add, BitVec.add_assoc]
      rfl
    rw [List.length_cons, hadd]

/-- The one-pass accumulator is `Emit` for each sample in order. -/
theorem emitAll_eq_emitEach (es : List Emission) (fin : Transient) (s : State) :
    emitAll es fin s = emitEach es fin s := by
  induction es generalizing s with
  | nil => simp [emitAll, emitEach, samplesOf]
  | cons e es ih =>
    rw [emitAll_cons, emitEach]
    cases emit e.value { s with regs := e.regs } with
    | ok t => exact ih t
    | error t => rfl

end Sys2Proof.Laws
end

