-- ==== Sys2Proof/Laws/Samples.lean ====
section
/-! SUPPORT. The phase accumulator and the loops of the micro-operations give the samples of the rules (R143, R147,
R160 to R165, R180, R181), and the counts of R141 and R165. -/

namespace Sys2Proof.Laws

open Sys2Proof.Machine

theorem zipIdx_replicate_map_snd (n j : Nat) :
    ((List.replicate n ()).zipIdx j).map Prod.snd = (List.range n).map (· + j) := by
  induction n generalizing j with
  | zero => rfl
  | succ n ih =>
    rw [List.replicate_succ, List.zipIdx_cons, List.map_cons, ih, List.range_succ_eq_map, List.map_cons, List.map_map]
    congr 1
    · simp
    · exact List.map_congr_left fun x _ => by simp only [Function.comp_apply]; omega

/-- A loop makes its body's emissions for the indices in order. -/
theorem emissionLoop_eq (n : Nat) (body : Nat → List Emission) :
    emissionLoop n body = (List.range n).flatMap body := by
  have h := zipIdx_replicate_map_snd n 0
  simp only [Nat.add_zero, List.map_id'] at h
  rw [emissionLoop, ← h, List.flatMap_map]

theorem samplesOf_flatMap (l : List Nat) (f : Nat → List Emission) :
    samplesOf (l.flatMap f) = l.flatMap fun i => samplesOf (f i) := by
  simp [samplesOf, List.map_flatMap]

theorem flatMap_range_const (n : Nat) (vs : List Byte) :
    ((List.range n).flatMap fun _ => vs) = (List.replicate n vs).flatten := by
  rw [List.flatMap_def, List.map_const', List.length_range]

/-- The two baud factors there are (R7). -/
theorem baudFactor_cases {b : Word} {k : Nat} (h : baudFactor b = some k) :
    (b = 1200 ∧ k = 1) ∨ (b = 2400 ∧ k = 2) := by
  unfold baudFactor at h
  split at h
  · exact .inl ⟨‹_›, by simpa using h.symm⟩
  · split at h
    · exact .inr ⟨‹_›, by simpa using h.symm⟩
    · cases h

/-- The samples of the loop depend on the phase and its increment alone. -/
theorem samplesOf_pulseLoop (n : Nat) (q r : Transient) (hph : q.ph = r.ph) (hinc : q.inc = r.inc) :
    samplesOf (pulseLoop n q) = samplesOf (pulseLoop n r) := by
  induction n generalizing q r with
  | zero => rfl
  | succ n ih =>
    have h := ih (pulseAdvance q) (pulseAdvance r) (by simp [pulseAdvance, hph, hinc]) hinc
    simp only [samplesOf] at h ⊢
    simp only [pulseLoop, List.map_cons, h, hph]

/-- The phase accumulator gives the samples of R143. -/
theorem samplesOf_pulse {k : Nat} (hk : k = 1 ∨ k = 2) (t : Tone) (r : Transient) :
    samplesOf (pulseEmissions k t r) = pulseSamples k t := by
  have h : samplesOf (pulseEmissions k t r) = samplesOf (pulseEmissions k t Transient.initial) :=
    samplesOf_pulseLoop _ _ _ rfl rfl
  rw [h]
  rcases hk with rfl | rfl <;> cases t <;> decide +kernel

/-- The pulse lengths of R141. -/
theorem pulseSamples_length (k : Nat) (t : Tone) : (pulseSamples k t).length = pulseLength k t := by
  simp [pulseSamples]

theorem samplesOf_byte {k : Nat} (hk : k = 1 ∨ k = 2) (d : Byte) (r : Transient) :
    samplesOf (byteEmissions k d r) = byteSamples k d := by
  unfold byteEmissions byteSamples
  simp only [samplesOf_append, emissionLoop_eq, samplesOf_flatMap, samplesOf_pulse hk, flatMap_range_const]
  congr 2
  refine congrArg (fun f => List.flatMap f (List.range 8)) (funext fun i => ?_)
  unfold bitEmissions bitSamples
  dsimp only
  split <;> simp only [samplesOf_append, samplesOf_pulse hk]

theorem samplesOf_sil (n : Nat) (r : Transient) : samplesOf (silEmissions n r) = List.replicate n midline := by
  unfold silEmissions
  rw [emissionLoop_eq, samplesOf_flatMap]
  have h := flatMap_range_const n [midline]
  have hf : (List.replicate n [midline]).flatten = List.replicate n midline := by
    induction n with
    | zero => rfl
    | succ n ih => rw [List.replicate_succ, List.flatten_cons, ih (flatMap_range_const n _)]; rfl
  rw [← hf, ← h]
  rfl

theorem samplesOf_hdr {k : Nat} (hk : k = 1 ∨ k = 2) (p : Nat) (r : Transient) :
    samplesOf (hdrEmissions k p r) = (List.replicate p (pulseSamples k .short)).flatten := by
  unfold hdrEmissions
  simp only [emissionLoop_eq, samplesOf_flatMap, samplesOf_pulse hk, flatMap_range_const]

/-- Every data-bit symbol lasts as long as a LONG pulse (R148, R165). -/
theorem bitSamples_length {k : Nat} (hk : k = 1 ∨ k = 2) (b : Bool) : (bitSamples k b).length = 36 / k := by
  rcases hk with rfl | rfl <;> cases b <;> rfl

theorem flatMap_length_const (l : List Nat) (f : Nat → List Byte) (n : Nat) (h : ∀ i, (f i).length = n) :
    (l.flatMap f).length = l.length * n := by
  induction l with
  | nil => simp
  | cons i l ih => rw [List.flatMap_cons, List.length_append, h, ih, List.length_cons, Nat.succ_mul, Nat.add_comm]

/-- A micro-operation emits as many samples as R165, R180, R181 and R225 say. -/
theorem microSamples_length {k : Nat} (hk : k = 1 ∨ k = 2) (i : Instr) :
    (microSamples k i).length = sampleCount k i := by
  cases i with
  | sil n => simp [microSamples, sampleCount]
  | pulse t => exact pulseSamples_length k t
  | hdr p =>
    rw [microSamples, List.length_flatten, List.map_replicate, List.sum_replicate, pulseSamples_length]
    rcases hk with rfl | rfl <;> rfl
  | byte d =>
    simp only [microSamples, byteSamples, List.length_append, List.length_flatten, List.map_replicate,
      List.sum_replicate, pulseSamples_length, flatMap_length_const _ _ _ (fun i => bitSamples_length hk (d.getLsbD i))]
    rcases hk with rfl | rfl <;> rfl
  | fin => rfl
  | start => rfl
  | srst => rfl

end Sys2Proof.Laws
end

