-- ==== Sys2Proof/Laws/Exec.lean ====
section
/-! SUPPORT. What executing an instruction comes to: one lemma for the micro-operations that write samples, one for
those that stop for want of a baud factor, and the fields no micro-operation changes. -/

namespace Sys2Proof.Laws

open Sys2Proof.Machine

theorem withBaudFactor_some {s : State} {k : Nat} (h : baudFactor s.baud = some k) (f : Nat → State) :
    withBaudFactor s f = f k := by
  simp [withBaudFactor, h]

theorem withBaudFactor_none {s : State} (h : baudFactor s.baud = none) (f : Nat → State) :
    withBaudFactor s f = raiseError .badConfig none s := by
  simp [withBaudFactor, h]

theorem baudFactor_one_or_two {b : Word} {k : Nat} (h : baudFactor b = some k) : k = 1 ∨ k = 2 :=
  (baudFactor_cases h).imp And.right And.right

/-- A sample-writing micro-operation under a legal baud rate is one run of emissions, whose samples are those of the
rules. -/
theorem exec_emits {s : State} {k : Nat} (hk : baudFactor s.baud = some k) (i : Instr) (hi : i.isMicroOp = true)
    (hf : i ≠ .fin) : ∃ es r, samplesOf es = microSamples k i ∧ exec i s = .next (emitAll es r s) := by
  have h12 := baudFactor_one_or_two hk
  cases i with
  | sil n => exact ⟨_, _, samplesOf_sil n s.regs, rfl⟩
  | pulse t => exact ⟨_, _, samplesOf_pulse h12 t s.regs, by simp [exec, execPulse, withBaudFactor_some hk]; rfl⟩
  | hdr p =>
    by_cases hp : p = 0
    · subst hp
      exact ⟨[], { s.regs with rem := 0 }, rfl, rfl⟩
    · exact ⟨_, _, samplesOf_hdr h12 p s.regs, by simp [exec, execHdr, hp, withBaudFactor_some hk]; rfl⟩
  | byte d => exact ⟨_, _, samplesOf_byte h12 d s.regs, by simp [exec, execByte, withBaudFactor_some hk]; rfl⟩
  | fin => exact absurd rfl hf
  | start => cases hi
  | srst => cases hi

/-- SIL needs no baud factor (R180). -/
theorem exec_sil_emits (n : Nat) (s : State) :
    ∃ es r, samplesOf es = List.replicate n midline ∧ exec (.sil n) s = .next (emitAll es r s) :=
  ⟨_, _, samplesOf_sil n s.regs, rfl⟩

/-- Every micro-operation either emits samples, or raises BAD_CONFIG for want of a baud factor, or is FIN. -/
theorem exec_micro_cases (i : Instr) (s : State) (hi : i.isMicroOp = true) :
    (∃ es r, exec i s = .next (emitAll es r s)) ∨ exec i s = .next (raiseError .badConfig none s) ∨
    (i = .fin ∧ exec i s = .next { s with out := writeHeader (headerFields (s.wp - 44)) s.out, outLen := s.wp }) := by
  by_cases hf : i = .fin
  · exact .inr (.inr ⟨hf, by rw [hf]; rfl⟩)
  · rcases hb : baudFactor s.baud with _ | k
    · cases i with
      | sil n => exact .inl ⟨_, _, rfl⟩
      | pulse t => exact .inr (.inl (by simp [exec, execPulse, withBaudFactor_none hb]))
      | hdr p =>
        by_cases hp : p = 0
        · exact .inl ⟨[], { s.regs with rem := 0 }, by simp [exec, execHdr, hp]⟩
        · exact .inr (.inl (by simp [exec, execHdr, hp, withBaudFactor_none hb]))
      | byte d => exact .inr (.inl (by simp [exec, execByte, withBaudFactor_none hb]))
      | fin => exact absurd rfl hf
      | start => cases hi
      | srst => cases hi
    · obtain ⟨es, r, -, h⟩ := exec_emits hb i hi hf
      exact .inl ⟨es, r, h⟩

/-- Every instruction completes: no meaning faults or is refused. -/
theorem exec_next (i : Instr) (s : State) : ∃ t, exec i s = .next t := by
  cases i with
  | start =>
    simp only [exec, execStart]
    split
    · exact ⟨_, rfl⟩
    · split <;> exact ⟨_, rfl⟩
  | sil n => exact ⟨_, rfl⟩
  | pulse t => exact ⟨_, rfl⟩
  | hdr p => exact ⟨_, rfl⟩
  | byte d => exact ⟨_, rfl⟩
  | fin => exact ⟨_, rfl⟩
  | srst => exact ⟨_, rfl⟩

/-- The fields no micro-operation changes. -/
structure SameInputs (s t : State) : Prop where
  cfg : t.cfg = s.cfg
  baud : t.baud = s.baud
  leadinS : t.leadinS = s.leadinS
  casLen : t.casLen = s.casLen
  cur : t.cur = s.cur
  pos : t.pos = s.pos
  eof : t.eof = s.eof
  cas : t.cas = s.cas
  stage : t.stage = s.stage
  further : t.further = s.further
  casTainted : t.casTainted = s.casTainted
  casEpoch : t.casEpoch = s.casEpoch
  draws : t.draws = s.draws
  trace : t.trace = s.trace
  readData : t.readData = s.readData
  schedule : t.schedule = s.schedule
  mode : t.status.mode = s.status.mode
  modeValid : t.status.modeValid = s.status.modeValid

theorem emitAll_sameInputs (es : List Emission) (r : Transient) (s : State) : SameInputs s (emitAll es r s) := by
  constructor <;> first | simp | (unfold emitAll; dsimp only; split <;> rfl)

theorem raiseError_sameInputs (e : ErrCode) (x : Option ErrorInfo) (s : State) :
    SameInputs s (raiseError e x s) := by
  constructor <;> rfl

/-- A micro-operation leaves the TPSM's registers, the configuration, CAS memory and the mode as they are. -/
theorem exec_micro_sameInputs {i : Instr} {s t : State} (hi : i.isMicroOp = true) (h : exec i s = .next t) :
    SameInputs s t := by
  rcases exec_micro_cases i s hi with ⟨es, r, h'⟩ | h' | ⟨-, h'⟩ <;> rw [h'] at h <;> cases h
  · exact emitAll_sameInputs es r s
  · exact raiseError_sameInputs _ _ s
  · constructor <;> rfl

end Sys2Proof.Laws
end

