-- ==== Sys2Proof/Laws/PerInstr.lean ====
section
/-! SUPPORT. What holds of each instruction as syntax: the bits its row of the opcode table fixes stand in its word. -/

namespace Sys2Proof.Laws

theorem and_append {m n : Nat} (x u : BitVec m) (y v : BitVec n) : (x ++ y) &&& (u ++ v) = (x &&& u) ++ (y &&& v) := by
  apply BitVec.eq_of_getLsbD_eq
  intro i _
  simp only [BitVec.getLsbD_and, BitVec.getLsbD_append]
  split <;> rfl

/-- The word of an instruction carries the `match` of its row under the row's `mask` (R93 to R97, R101). -/
def RowBits.Statement (i : Instr) : Prop := encode i &&& rowMask i = rowMatch i

theorem RowBits.sil (n : Nat) : RowBits.Statement (.sil n) :=
  (and_append (0x1 : BitVec 4) 0xF (BitVec.ofNat 28 n) 0#28).trans (by rw [BitVec.and_zero]; rfl)

theorem RowBits.pulse (t : Tone) : RowBits.Statement (.pulse t) := by
  cases t <;> rfl

theorem RowBits.hdr (p : Nat) : RowBits.Statement (.hdr p) :=
  (and_append (0x3 : BitVec 4) 0xF (BitVec.ofNat 28 p) 0#28).trans (by rw [BitVec.and_zero]; rfl)

theorem RowBits.byte (d : Byte) : RowBits.Statement (.byte d) :=
  (and_append ((0x4 : BitVec 4) ++ (0 : BitVec 20)) 0xFFFFFF d 0#8).trans (by rw [BitVec.and_zero]; rfl)

theorem RowBits.fin : RowBits.Statement .fin := rfl

theorem RowBits.start : RowBits.Statement .start := rfl

theorem RowBits.srst : RowBits.Statement .srst := rfl

end Sys2Proof.Laws
end

