-- ==== Sys2Proof/Laws/Step.lean ====
section
/-! SUPPORT. What a turn comes to: the cases of `fetch` and of the moves, said once. -/

namespace Sys2Proof.Laws

open Sys2Proof.Machine

theorem step_of_run {s t : State} {i : Instr} {k : State → State} (h : fetch s = .run i t k) :
    step s = thenDo (exec i t) k := by
  rw [step, h]
  dsimp only
  cases exec i t <;> rfl

theorem step_of_settled {s : State} {o : Host.Outcome State Fault Refusal} (h : fetch s = .settled o) :
    step s = o := by
  rw [step, h]

theorem fetch_block {s : State} (h : s.schedule = []) : fetch s = blockMove s := by
  rw [fetch, h]

theorem fetch_host {s : State} {op : HostOp} {rest : List Turn} (h : s.schedule = .host op :: rest) :
    fetch s = hostAccess op { s with schedule := rest } := by
  rw [fetch, h]

theorem fetch_tpsm {s : State} (h : s.tpsmTurn) : fetch s = tpsmMove s := by
  rw [fetch_block h.1, blockMove, h.2]

/-- A window of CAS reads, while the host keeps its duty: the bytes as they stand, and no change of state (R62). -/
theorem casWindow_untainted {s : State} (h : s.casTainted = false) (n a : Nat) :
    casWindow n a s = (casBytes s a n, s) := by
  induction n generalizing a with
  | zero => rfl
  | succ n ih =>
    have hr : casRead a s = (casByte s a, s) := by simp [casRead, h]
    simp only [casWindow, hr, ih]
    simp only [casBytes, List.range_succ_eq_map, List.map_cons, List.map_map, Nat.add_zero]
    congr 2
    exact List.map_congr_left fun i _ => by simp only [Function.comp_apply]; congr 1; omega

theorem casRead_untainted {s : State} (h : s.casTainted = false) (a : Nat) : casRead a s = (casByte s a, s) := by
  simp [casRead, h]

end Sys2Proof.Laws
end

