-- ==== Sys2Proof/Tests/Slice0.lean ====
section
/-! SUPPORT. Tests: ill-formed terms refused, words of the spec decoded, one step of each instruction against the
vectors of 95_test_vectors.md, and for each statement with hypotheses a state and operands that meet them. -/

namespace Sys2Proof.Tests

open Sys2Proof.Machine

/-! ## Helpers -/

/-- A block at rest with small memories. -/
def block (baud outCap wp : Word) : State :=
  { State.powerOn { outCap := outCap, casCap := 64 } with baud := baud, wp := wp }

/-- A block with a CAS stream. -/
def holding (stream : List Byte) : State :=
  { block 1200 200 44 with cas := Memory.cells 0 stream, casLen := BitVec.ofNat 32 stream.length }

/-- A run that scans from a cursor. -/
def scanning (stream : List Byte) (p : Word) : State :=
  { holding stream with status := { Status.clear with busy := true }, st := .scanning, pos := p }

/-- A run in the policy of a mode. -/
def inPolicy (stream : List Byte) (p : Word) (m : Mode) (g : Stage) (further : Bool) : State :=
  { holding stream with
    status := { Status.clear with busy := true, mode := m, modeValid := true }
    st := .dispatching, cur := m, pos := p, stage := g, further := further }

/-- A block the host is about to access. -/
def hosted (s : State) (op : HostOp) : State := { s with schedule := [.host op] }

def busy (s : State) : State := { s with status := { s.status with busy := true } }

/-- A marker and the ten bytes behind it. -/
def asciiBlock : List Byte := syncMarker ++ typeAscii

/-- What a test looks at after a step. -/
def shown {α : Type} (o : Host.Outcome State Fault Refusal) (f : State → α) : Option α :=
  match o with
  | .next t => some (f t)
  | .fault _ => none
  | .refused _ => none

/-- The vectors V-P1 to V-P4. -/
def long1200 : List Byte :=
  [0x80, 0x96, 0xAB, 0xBF, 0xD1, 0xE1, 0xED, 0xF7, 0xFD, 0xFF, 0xFD, 0xF7, 0xED, 0xE1, 0xD1, 0xBF, 0xAB, 0x96,
   0x80, 0x6A, 0x55, 0x41, 0x2F, 0x1F, 0x13, 0x09, 0x03, 0x01, 0x03, 0x09, 0x13, 0x1F, 0x2F, 0x41, 0x55, 0x6A]
def long2400 : List Byte :=
  [0x80, 0xAB, 0xD1, 0xED, 0xFD, 0xFD, 0xED, 0xD1, 0xAB, 0x80, 0x55, 0x2F, 0x13, 0x03, 0x03, 0x13, 0x2F, 0x55]
def short2400 : List Byte := [0x80, 0xD1, 0xFD, 0xED, 0xAB, 0x55, 0x13, 0x03, 0x2F]

/-! ## Ill-formed terms -/

theorem test_sil_count_refused : WellFormed (.sil (2 ^ 28)) = false := by decide
theorem test_hdr_count_refused : WellFormed (.hdr (2 ^ 28)) = false := by decide
theorem test_byte_range_refused : assembleWords 1 (.byte 256) = none := by decide
theorem test_largest_counts_accepted :
    WellFormed (.sil (2 ^ 28 - 1)) = true ∧ WellFormed (.hdr (2 ^ 28 - 1)) = true := by decide

/-! ## Decoding: the words of V-E and V-C, written from the patterns of R93 to R97 and R101 -/

theorem test_decode_sil : decodeMop 0b00010000000000001010100011000000 = .ok (.sil 43200) := by decide
theorem test_decode_pulse_long : decodeMop 0b00100000000000000000000000000000 = .ok (.pulse .long) := by decide
theorem test_decode_pulse_short : decodeMop 0b00100000000000000000000000000001 = .ok (.pulse .short) := by decide
theorem test_decode_hdr : decodeMop 0b00110000000000000011111010000000 = .ok (.hdr 16000) := by decide
theorem test_decode_byte : decodeMop 0b01000000000000000000000000011010 = .ok (.byte 0x1A) := by decide
theorem test_decode_fin : decodeMop 0b01010000000000000000000000000000 = .ok .fin := by decide
theorem test_decode_start : decodeCtrl 0b11111111111111111111111111111101 = .ok .start := by decide
theorem test_decode_srst : decodeCtrl 0b00000000000000000000000000000011 = .ok .srst := by decide
theorem test_decode_no_command : decodeCtrl 0xFFFFFFFC = .error .noCommand := by decide
theorem test_decode_illegal :
    decodeMop 0x20000002 = .error .pulseReservedBits ∧ decodeMop 0x40000100 = .error .byteReservedBits ∧
    decodeMop 0x50000001 = .error .finReservedBits ∧ decodeMop 0x00000000 = .error (.reservedOpcode 0) ∧
    decodeMop 0x60000000 = .error (.reservedOpcode 6) ∧ decodeMop 0xF0000000 = .error (.reservedOpcode 15) := by decide
theorem test_table_words :
    decodeTableWord 32 0x1000A8C0 = some (.sil 43200) ∧ decodeTableWord 32 0x20000001 = some (.pulse .short) ∧
    decodeTableWord 32 0x30000000 = some (.hdr 0) ∧ decodeTableWord 32 0x400000FF = some (.byte 0xFF) ∧
    decodeTableWord 32 0x50000000 = some .fin ∧ decodeTableWord 32 0x00000001 = some .start ∧
    decodeTableWord 32 0x00000002 = some .srst := by decide
theorem test_assembler_line :
    readLine ['S', 'I', 'L', ' ', '0', 'x', '1', 'F', ' ', ';', ' ', 'x'] = some (.sil 31) := by decide

/-! ## One step of each instruction -/

/-- V-S2. -/
theorem test_sil_three : shown (step ((block 1200 200 44).withFetchWord 32 0x10000003)) (fun t => (t.out, t.wp)) =
    some ([(44, 0x80), (45, 0x80), (46, 0x80)], 47) := by decide

/-- V-S3. -/
theorem test_sil_overflow : shown (step ((block 1200 50 44).withFetchWord 32 0x1000000A))
    (fun t => (t.out, t.wp, t.status.word)) = some (Memory.cells 44 (List.replicate 6 0x80), 50, 0x026) := by decide

/-- V-P1. -/
theorem test_pulse_long_1200 : shown (step ((block 1200 200 44).withFetchWord 32 0x20000000)) (fun t => (t.out, t.wp)) =
    some (Memory.cells 44 long1200, 80) := by decide

/-- V-P5. -/
theorem test_pulse_overflow : shown (step ((block 1200 200 195).withFetchWord 32 0x20000001))
    (fun t => (t.out, t.status.word)) = some (Memory.cells 195 [0x80, 0xAB, 0xD1, 0xED, 0xFD], 0x026) := by decide

/-- V-H4. -/
theorem test_hdr_three_2400 : shown (step ((block 2400 200 44).withFetchWord 32 0x30000003)) (fun t => (t.out, t.wp)) =
    some (Memory.cells 44 (short2400 ++ short2400 ++ short2400), 71) := by decide

/-- V-H1. -/
theorem test_hdr_zero : shown (step ((block 1200 200 44).withFetchWord 32 0x30000000)) (fun t => (t.out, t.wp)) =
    some ([], 44) := by decide

/-- V-B9: `L SS L SS L L SS L SS SSSS`. -/
theorem test_byte_2400 : shown (step ((block 2400 300 44).withFetchWord 32 0x400000A5)) (fun t => (t.out, t.wp)) =
    some (Memory.cells 44 (long2400 ++ (short2400 ++ short2400) ++ long2400 ++ (short2400 ++ short2400) ++ long2400
      ++ long2400 ++ (short2400 ++ short2400) ++ long2400 ++ (short2400 ++ short2400)
      ++ (short2400 ++ short2400 ++ short2400 ++ short2400)), 242) := by decide +kernel

/-- V-F2. -/
theorem test_fin_98 : shown (step ((block 1200 200 98).withFetchWord 32 0x50000000))
    (fun t => (t.out.map Prod.snd, t.outLen, t.status.word)) =
    some ([0x52, 0x49, 0x46, 0x46, 0x36, 0, 0, 0, 0x57, 0x41, 0x56, 0x45, 0x66, 0x6D, 0x74, 0x20, 0x10, 0, 0, 0, 1, 0, 1,
      0, 0xC0, 0xA8, 0, 0, 0xC0, 0xA8, 0, 0, 1, 0, 8, 0, 0x64, 0x61, 0x74, 0x61, 0x36, 0, 0, 0], 98, 0x002) := by
  decide +kernel

/-- V-H-1. -/
theorem test_start_bad_baud : shown (step ({ holding asciiBlock with baud := 9600 }.withFetchWord 32 1))
    (fun t => (t.status.word, t.outLen, t.out)) = some (0x036, 0, []) := by decide

/-- V-H-7. -/
theorem test_start_ignored : step ((scanning asciiBlock 0).withFetchWord 32 1) = .next (scanning asciiBlock 0) := rfl

/-- V-H-8 and V-C3. -/
theorem test_srst_aborts : shown (step ((scanning asciiBlock 5).withFetchWord 32 3))
    (fun t => (t.status.word, t.outLen, t.st, t.pos, t.baud, t.casLen)) = some (0, 0, .idle, 0, 1200, 18) := by decide

/-! ## States and operands that meet the hypotheses of the statements -/

theorem witness_DecodeEncodeAgree : WellFormed (.sil (2 ^ 28 - 1)) = true ∧ Instr.isMicroOp (.sil (2 ^ 28 - 1)) = true ∧
    WellFormed .start = true ∧ Instr.isMicroOp .start = false ∧
    decodeMop 0x1FFFFFFF = .ok (.sil (2 ^ 28 - 1)) := by decide

theorem witness_CtrlWordByLowBits : 2 ≤ (0xFFFFFFFE : Word).toNat % 4 ∧ 2 ≤ (3 : Word).toNat % 4 ∧
    (1 : Word).toNat % 4 = 1 ∧ (0xFFFFFFFC : Word).toNat % 4 = 0 ∧ decodeMop 0x50000000 = .ok .fin := by decide

theorem witness_EmitAppendsOrOverflows :
    (block 1200 45 44).wp.toNat < (block 1200 45 44).cfg.outCap.toNat ∧
    (block 1200 44 44).cfg.outCap.toNat ≤ (block 1200 44 44).wp.toNat := by decide

theorem witness_EmissionsCompose :
    (block 1200 46 44).wp.toNat + (silEmissions 2 Transient.initial).length ≤ (block 1200 46 44).cfg.outCap.toNat ∧
    (block 1200 45 44).wp.toNat ≤ (block 1200 45 44).cfg.outCap.toNat ∧
    (block 1200 45 44).cfg.outCap.toNat < (block 1200 45 44).wp.toNat + (silEmissions 2 Transient.initial).length := by
  decide

theorem witness_SilStoresMidlineSamples : (block 9600 47 44).wp.toNat + 3 ≤ (block 9600 47 44).cfg.outCap.toNat := by
  decide

theorem witness_PulseStoresOneCycle :
    ((block 1200 80 44).baud = 1200 ∧ (block 1200 80 44).wp.toNat + 36 ≤ (block 1200 80 44).cfg.outCap.toNat) ∧
    ((block 1200 62 44).baud = 1200 ∧ (block 1200 62 44).wp.toNat + 18 ≤ (block 1200 62 44).cfg.outCap.toNat) ∧
    ((block 2400 62 44).baud = 2400 ∧ (block 2400 62 44).wp.toNat + 18 ≤ (block 2400 62 44).cfg.outCap.toNat) ∧
    ((block 2400 53 44).baud = 2400 ∧ (block 2400 53 44).wp.toNat + 9 ≤ (block 2400 53 44).cfg.outCap.toNat) := by
  decide

theorem witness_HdrStoresShortPulses :
    ((block 1200 80 44).baud = 1200 ∧ (block 1200 80 44).wp.toNat + 2 * 18 ≤ (block 1200 80 44).cfg.outCap.toNat) ∧
    ((block 2400 71 44).baud = 2400 ∧ (block 2400 71 44).wp.toNat + 3 * 9 ≤ (block 2400 71 44).cfg.outCap.toNat) := by
  decide

theorem witness_ByteStoresLineCode :
    ((block 1200 440 44).baud = 1200 ∧ (block 1200 440 44).wp.toNat + 396 / 1 ≤ (block 1200 440 44).cfg.outCap.toNat) ∧
    ((block 2400 242 44).baud = 2400 ∧ (block 2400 242 44).wp.toNat + 396 / 2 ≤ (block 2400 242 44).cfg.outCap.toNat) ∧
    10 < 11 ∧ 35 < 36 / 1 ∧ 17 < 36 / 2 := by decide

theorem witness_OverflowStopsAtCapacity :
    (block 9600 50 44).cfg.outCap.toNat < (block 9600 50 44).wp.toNat + sampleCount 1 (.sil 7) ∧
    baudFactor (block 1200 50 44).baud = some 1 ∧
    (block 1200 50 44).wp.toNat ≤ (block 1200 50 44).cfg.outCap.toNat ∧
    (block 1200 50 44).cfg.outCap.toNat < (block 1200 50 44).wp.toNat + sampleCount 1 (.sil 7) ∧
    (block 1200 50 44).cfg.outCap.toNat < (block 1200 50 44).wp.toNat + sampleCount 1 (.pulse .short) ∧
    (block 1200 50 44).cfg.outCap.toNat < (block 1200 50 44).wp.toNat + sampleCount 1 (.hdr 1) ∧
    (block 1200 50 44).cfg.outCap.toNat < (block 1200 50 44).wp.toNat + sampleCount 1 (.byte 0) := by decide

theorem witness_PulsesNeedLegalBaud : (block 1201 50 44).baud ≠ 1200 ∧ (block 1201 50 44).baud ≠ 2400 := by decide

theorem witness_HeaderSizesAreLengthMinus44 :
    44 ≤ (block 1200 44 44).wp.toNat ∧ ∃ t, exec .fin (block 1200 44 44) = .next t := ⟨by decide, _, rfl⟩

theorem witness_SineRomIsTheDocumentsFormula : 35 < pulseLength 1 .long ∧ 8 < pulseLength 2 .short := by decide

theorem witness_DurationsByBaud : (1 = 1 ∨ 1 = 2) ∧ (2 = 1 ∨ 2 = 2) := by decide

theorem witness_StartBeginsRun :
    (holding asciiBlock).status.busy = false ∧ (holding asciiBlock).baud = 1200 ∧
    ({ holding asciiBlock with leadinS := 6213 } : State).leadinS.toInt ≤ 6213 ∧
    (holding asciiBlock).casLen.toNat ≤ (holding asciiBlock).cfg.casCap.toNat := by decide

/-- Each of the three conditions fails alone: V-H-1, V-H-2, V-H-5. -/
theorem witness_StartRejectsBadConfig :
    (∀ s ∈ [{ holding [] with baud := 9600 }, { holding [] with leadinS := 6214 }, { holding [] with casLen := 65 }],
      s.status.busy = false ∧
      ¬ ((s.baud = 1200 ∨ s.baud = 2400) ∧ s.leadinS.toInt ≤ 6213 ∧ s.casLen.toNat ≤ s.cfg.casCap.toNat)) := by decide

theorem witness_StartIgnoredWhileBusy : (scanning asciiBlock 0).status.busy = true := by decide

/-- Each clause: a word at the head of the port, a CTRL write, and a word of the TPSM. -/
theorem witness_StepRunsDecodedInstruction :
    (({ busy (holding []) with prog := some [0x50000000] } : State).schedule = [] ∧
      ({ busy (holding []) with prog := some [0x50000000] } : State).prog = some [0x50000000] ∧
      decodeMop 0x50000000 = .ok .fin) ∧
    ((hosted (holding []) (.writeReg .word 0 1)).schedule = [.host (.writeReg .word 0 1)] ∧
      decodeCtrl 1 = .ok .start) ∧
    ∃ t k, fetch { scanning [] 0 with st := .done } = .run .fin t k :=
  ⟨by decide, by decide, _, _, rfl⟩

theorem witness_PlacedWordRunsNext :
    decodeTableWord 32 0x1000A8C0 = some (.sil 43200) ∧ decodeTableWord 32 2 = some .srst := by decide

theorem witness_DriveBeginsProgram :
    (hosted (scanning [] 0) (.drive [])).schedule = [.host (.drive [])] ∧ (scanning [] 0).status.busy = true ∧
    (block 2400 64 44).status.busy = false ∧ (block 2400 64 44).baud = 2400 ∧
    (block 1201 64 44).status.busy = false ∧ ¬ ((block 1201 64 44).baud = 1200 ∨ (block 1201 64 44).baud = 2400) := by
  decide

theorem witness_IllegalWordEndsProgram : decodeMop 0x60000000 = .error (.reservedOpcode 6) ∧
    ({ busy (holding []) with prog := some [0x60000000] } : State).schedule = [] ∧
    ({ busy (holding []) with prog := some [0x60000000] } : State).prog = some [0x60000000] := by decide

theorem witness_ProgramEnds : decodeMop 0x50000000 = .ok .fin ∧
    ({ busy (holding []) with prog := some [0x50000000, 0] } : State).schedule = [] ∧
    ({ busy (holding []) with prog := some [0x50000000, 0] } : State).prog = some [0x50000000, 0] ∧
    ({ busy (holding []) with prog := some [] } : State).schedule = [] ∧
    ({ busy (holding []) with prog := some [] } : State).prog = some [] := by decide

theorem witness_IdleBlockWaits : State.reset.tpsmTurn ∧ State.reset.st = .idle := ⟨⟨rfl, rfl⟩, rfl⟩

/-- Seven bytes left; eight bytes that are no marker; a marker. -/
theorem witness_ScanMoves : (∀ s ∈ [scanning (syncMarker.take 7) 0, scanning typeAscii 2, scanning asciiBlock 0],
      s.schedule = [] ∧ s.prog = none ∧ s.st = .scanning ∧ s.casTainted = false) ∧
    bytesLeft (scanning (syncMarker.take 7) 0) < 8 ∧
    (8 ≤ bytesLeft (scanning typeAscii 2) ∧ casBytes (scanning typeAscii 2) 2 8 ≠ syncMarker) ∧
    (8 ≤ bytesLeft (scanning asciiBlock 0) ∧ casBytes (scanning asciiBlock 0) 0 8 = syncMarker) := by decide

/-- Nine bytes behind the marker (V-T5). -/
theorem witness_TruncatedBlockEndsRun :
    (scanning (asciiBlock.take 17) 0).tpsmTurn ∧ (scanning (asciiBlock.take 17) 0).st = .scanning ∧
    (scanning (asciiBlock.take 17) 0).casTainted = false ∧ 8 ≤ bytesLeft (scanning (asciiBlock.take 17) 0) ∧
    bytesLeft (scanning (asciiBlock.take 17) 0) < 18 ∧ casBytes (scanning (asciiBlock.take 17) 0) 0 8 = syncMarker :=
  ⟨⟨rfl, rfl⟩, rfl, rfl, by decide, by decide, by decide⟩

/-- Ten bytes behind the marker (V-T3). -/
theorem witness_MarkerDispatchesBlock :
    (scanning asciiBlock 0).tpsmTurn ∧ (scanning asciiBlock 0).st = .scanning ∧
    (scanning asciiBlock 0).casTainted = false ∧ 18 ≤ bytesLeft (scanning asciiBlock 0) ∧
    casBytes (scanning asciiBlock 0) 0 8 = syncMarker :=
  ⟨⟨rfl, rfl⟩, rfl, rfl, by decide, by decide⟩

theorem witness_ClassifyByTypeMarker : typeAscii.length = 10 ∧ typeBin.length = 10 ∧ typeBasic.length = 10 ∧
    (0xEA :: List.replicate 9 0xD0 : List Byte).length = 10 := by decide

/-- A further chunk; an Unknown block; `LEADIN_S` 0, 1 and 6213. -/
theorem witness_SilenceBeforeChunk :
    (∀ s ∈ [inPolicy [] 0 .ascii .silence true, inPolicy [] 0 .unknown .silence false,
        inPolicy [] 0 .basic .silence false, { inPolicy [] 0 .ascii .silence false with leadinS := 1 },
        { inPolicy [] 0 .binary .silence false with leadinS := 6213 }],
      s.schedule = [] ∧ s.prog = none ∧ s.st = .dispatching ∧ s.stage = .silence ∧ s.leadinS.toInt ≤ 6213) ∧
    (inPolicy [] 0 .ascii .silence true).further = true ∧
    ((inPolicy [] 0 .unknown .silence false).further = false ∧ (inPolicy [] 0 .unknown .silence false).cur = .unknown) ∧
    ((inPolicy [] 0 .basic .silence false).cur ≠ .unknown ∧ (inPolicy [] 0 .basic .silence false).leadinS.toInt ≤ 0) ∧
    (0 < (1 : Word).toInt ∧ ((43200 : Nat) : Int) = (1 : Word).toInt * 43200) ∧
    (0 < (6213 : Word).toInt ∧ ((268401600 : Nat) : Int) = (6213 : Word).toInt * 43200) := by
  decide +kernel

theorem witness_HeaderBeforeChunk :
    ∀ s ∈ [inPolicy [] 0 .ascii .header false, inPolicy [] 0 .ascii .header true,
        { inPolicy [] 0 .unknown .header false with baud := 2400 },
        { inPolicy [] 0 .binary .header true with baud := 2400 }],
      s.schedule = [] ∧ s.prog = none ∧ s.st = .dispatching ∧ s.stage = .header ∧
      ((s.baud = 1200 ∧ s.further = false) ∨ (s.baud = 1200 ∧ s.further = true) ∨
        (s.baud = 2400 ∧ s.further = false) ∨ (s.baud = 2400 ∧ s.further = true)) := by decide

/-- Seven bytes left; a marker with nothing behind it; a byte to encode. -/
theorem witness_DataPerBytePhase :
    (∀ s ∈ [inPolicy asciiBlock 11 .ascii .bytes false, inPolicy syncMarker 0 .ascii .bytes false,
        inPolicy asciiBlock 8 .ascii .bytes false],
      s.schedule = [] ∧ s.prog = none ∧ s.st = .dispatching ∧ s.stage = .bytes ∧ s.casTainted = false) ∧
    bytesLeft (inPolicy asciiBlock 11 .ascii .bytes false) < 8 ∧
    (8 ≤ bytesLeft (inPolicy syncMarker 0 .ascii .bytes false) ∧
      casBytes (inPolicy syncMarker 0 .ascii .bytes false) 0 8 = syncMarker) ∧
    (8 ≤ bytesLeft (inPolicy asciiBlock 8 .ascii .bytes false) ∧
      casBytes (inPolicy asciiBlock 8 .ascii .bytes false) 8 8 ≠ syncMarker) := by decide

/-- One byte left; none left. -/
theorem witness_DataTailPhase :
    (∀ s ∈ [inPolicy asciiBlock 17 .ascii (.tail 11) false, inPolicy asciiBlock 18 .ascii (.tail 11) false],
      s.schedule = [] ∧ s.prog = none ∧ s.st = .dispatching ∧ s.stage = .tail 11 ∧ s.casTainted = false) ∧
    (inPolicy asciiBlock 17 .ascii (.tail 11) false).pos.toNat < (holding asciiBlock).casLen.toNat ∧
    (holding asciiBlock).casLen.toNat ≤ (inPolicy asciiBlock 18 .ascii (.tail 11) false).pos.toNat := by
  decide

/-- Each clause, with the cursor at a marker and at the end of the stream. -/
theorem witness_PolicyAfterChunk :
    (∀ s ∈ [inPolicy syncMarker 8 .unknown .chunkEnd false, inPolicy syncMarker 0 .ascii .chunkEnd false,
        { inPolicy syncMarker 0 .ascii .chunkEnd false with eof := true }, inPolicy syncMarker 8 .ascii .chunkEnd true,
        inPolicy syncMarker 8 .binary .chunkEnd true, inPolicy syncMarker 8 .basic .chunkEnd false],
      s.schedule = [] ∧ s.prog = none ∧ s.st = .dispatching ∧ s.stage = .chunkEnd) ∧
    (inPolicy syncMarker 8 .unknown .chunkEnd false).cur = .unknown ∧
    (inPolicy syncMarker 8 .ascii .chunkEnd true).cur = .ascii ∧
    ((inPolicy syncMarker 8 .binary .chunkEnd true).cur = .binary ∧
      (inPolicy syncMarker 8 .binary .chunkEnd true).further = true) ∧
    ((inPolicy syncMarker 8 .basic .chunkEnd false).cur = .basic ∧
      (inPolicy syncMarker 8 .basic .chunkEnd false).further = false) ∧
    ((inPolicy syncMarker 0 .ascii .chunkEnd false).eof = false ∧
      (0 : Word).toNat < (holding syncMarker).casLen.toNat) ∧
    (holding syncMarker).casLen.toNat ≤ (8 : Word).toNat := by decide

theorem witness_DoneIssuesFin :
    ({ scanning [] 0 with st := .done } : State).tpsmTurn ∧ ({ scanning [] 0 with st := .done } : State).st = .done :=
  ⟨⟨rfl, rfl⟩, rfl⟩

theorem witness_ConfigWritesIgnoredWhileBusy :
    ∀ o ∈ [0x08, 0x0C, 0x10], (hosted (scanning [] 0) (.writeReg .word o 7)).schedule = [.host (.writeReg .word o 7)] ∧
      (hosted (scanning [] 0) (.writeReg .word o 7)).status.busy = true := by decide

theorem witness_RegisterWrites :
    (∀ o ∈ [0x04, 0x08, 0x0C, 0x10, 0x14, 0xFC],
      (hosted (holding []) (.writeReg .word o 7)).schedule = [.host (.writeReg .word o 7)] ∧
      (hosted (holding []) (.writeReg .word o 7)).status.busy = false) ∧
    ∀ o ∈ [0x04, 0x14, 0xFC],
      (hosted (scanning [] 0) (.writeReg .word o 7)).schedule = [.host (.writeReg .word o 7)] ∧
      (hosted (scanning [] 0) (.writeReg .word o 7)).status.busy = true := by decide

theorem witness_RegisterReads :
    (∀ o ∈ [0x00, 0x04, 0x08, 0x0C, 0x10, 0x14, 0x18, 0x1C, 0xFC],
      (hosted (holding []) (.readReg .word o)).schedule = [.host (.readReg .word o)]) ∧
    (holding []).status.busy = false ∧ (holding []).casTainted = false ∧
    (scanning [] 0).status.busy = true ∧ (scanning [] 0).status.done = false := by decide

theorem witness_StatusReadWhileBusy :
    (hosted (scanning [] 0) (.readReg .word 0x04)).schedule = [.host (.readReg .word 0x04)] ∧
    (hosted (scanning [] 0) (.readReg .word 0x04)).status.busy = true ∧
    (hosted (scanning [] 0) (.readReg .word 0x04)).casTainted = false := by decide

theorem witness_StatusWordFields :
    Status.clear.errcode = .none ∧ Status.clear.mode = .unknown ∧
    ({ Status.clear with errcode := .illegalMop, mode := .basic } : Status).errcode = .illegalMop ∧
    ({ Status.clear with errcode := .illegalMop, mode := .basic } : Status).mode = .basic := by decide

theorem witness_PortAccessRefused : (Width.byte ≠ .word) ∧ 0x05 % 4 ≠ 0 ∧ 256 ≤ 0x100 ∧
    (hosted (holding []) (.readReg .byte 0)).schedule = [.host (.readReg .byte 0)] ∧
    (hosted (holding []) (.writeReg .word 0x100 0)).schedule = [.host (.writeReg .word 0x100 0)] := by decide

theorem witness_CasWriteStoresByte :
    (hosted (scanning [] 0) (.writeCas 63 9)).schedule = [.host (.writeCas 63 9)] ∧
    (63 : Word).toNat < (scanning [] 0).cfg.casCap.toNat ∧
    (hosted (scanning [] 0) (.writeCas 64 9)).schedule = [.host (.writeCas 64 9)] ∧
    (scanning [] 0).cfg.casCap.toNat ≤ (64 : Word).toNat := by decide

theorem witness_CasReadByBlock :
    (holding []).casTainted = false ∧ ({ holding [] with casTainted := true } : State).casTainted = true := by decide

/-- A block whose program has stored one sample and FIN. -/
def finished : State :=
  { block 1200 200 45 with
    out := writeHeader (headerFields 1) [(44, 0x80)]
    outLen := 45
    status := { Status.clear with done := true } }

/-- A block whose program has stored one sample and ended without FIN. -/
def unheaded : State := { finished with out := [(44, 0x80)], outLen := 0 }

/-- The last stored byte of a finished run and of a program without FIN; then an address for each clause of the free
byte. -/
theorem witness_OutReadByHost :
    (hosted finished (.readOut 44)).schedule = [.host (.readOut 44)] ∧ (44 : Word).toNat < finished.cfg.outCap.toNat ∧
    (finished.status.done = true ∧ finished.status.err = false ∧ finished.casTainted = false ∧
      (44 : Word).toNat < finished.outLen.toNat ∧ finished.outLen = finished.wp ∧ finished.out.read 44 = some 0x80) ∧
    (unheaded.status.done = true ∧ unheaded.status.err = false ∧ unheaded.casTainted = false ∧ 44 ≤ (44 : Word).toNat ∧
      (44 : Word).toNat < unheaded.wp.toNat ∧ unheaded.out.read 44 = some 0x80) ∧
    (44 ≤ (45 : Word).toNat ∧ finished.wp.toNat ≤ (45 : Word).toNat) ∧
    ((43 : Word).toNat < 44 ∧ unheaded.outLen = 0) ∧
    ({ finished with casTainted := true } : State).casTainted = true ∧
    (rejectConfig finished).status.err = true ∧
    (scanning [] 0).status.done = false ∧ (199 : Word).toNat < (scanning [] 0).cfg.outCap.toNat ∧
    (scanning [] 0).cfg.outCap.toNat ≤ (200 : Word).toNat := by decide +kernel

theorem witness_TaintedResultIsFree : ∀ op ∈ [HostOp.readReg .word 0x14, .readOut 199, .readReg .word 0x04],
    (hosted { finished with casTainted := true } op).schedule = [.host op] ∧
    (hosted { finished with casTainted := true } op).casTainted = true ∧
    (hosted { finished with casTainted := true } op).status.done = true ∧
    (hosted { finished with casTainted := true } op).status.busy = false ∧
    (hosted { finished with casTainted := true } op).cfg.outCap = 200 := by decide

theorem witness_PowerOnResetsRegisters :
    (hosted (scanning asciiBlock 3) .powerOn).schedule = [.host .powerOn] := by decide

theorem witness_InvAtReset : Config.legal { outCap := 44, casCap := 0 } := by decide

/-- A run that has just begun, at the smallest capacity there is. -/
def started : State := beginRun (block 1200 44 44)

theorem started_inv : started.Inv where
  legal := by decide
  casForm := List.Pairwise.nil
  outForm := List.Pairwise.nil
  casInside := by decide
  outInside := by decide
  busyIff := by decide
  oneRun := by decide
  doneIdle := by decide
  errDone := by decide
  errCoded := by decide
  modeUnset := by decide
  wpLow := by decide
  wpHigh := by decide
  lengthOf := .inl rfl
  samples := fun a h1 h2 => absurd h2 (Nat.not_lt.mpr h1)
  header := fun h => absurd rfl h
  config := by decide
  portBaud := by decide
  cursor := by decide
  recorded := by decide
  scanEnd := by decide
  tailShort := fun _ h => absurd h (by decide)
  chunkEnds := by decide

theorem witness_StepKeepsInv : started.Inv ∧ ∃ t, step started = .next t := ⟨started_inv, _, rfl⟩

/-- A block turn with nothing scheduled, and one in front of a host access. -/
theorem witness_BlockTurnKeepsInputs :
    started.blockTurn ∧ ({ started with schedule := [.block, .host .powerOn] } : State).blockTurn :=
  ⟨.inl rfl, .inr ⟨_, rfl⟩⟩

theorem witness_CursorAdvancesWithinStream :
    started.Inv ∧ started.blockTurn ∧ started.st ≠ .idle ∧ ∃ t, step started = .next t :=
  ⟨started_inv, .inl rfl, by decide, _, rfl⟩

theorem witness_SamplesStayOnceWritten : started.Inv ∧ started.blockTurn ∧ ∃ t, step started = .next t :=
  ⟨started_inv, .inl rfl, _, rfl⟩

theorem witness_EveryRunEnds : started.Inv ∧ started.status.busy = true ∧ started.schedule = [] :=
  ⟨started_inv, rfl, rfl⟩

/-- V-T1: an empty stream, from a block at rest to the end of its run. -/
theorem empty_stream_run : ∃ a t, exec .start (block 1200 64 44) = .next a ∧ a.after 2 = .next t ∧
    t.status.done = true ∧ t.status.err = false ∧ t.trace = [0x50000000] ∧ t.outLen = 44 :=
  ⟨_, _, rfl, rfl, rfl, rfl, by decide +kernel, by decide +kernel⟩

/-- A block at rest with a stream that fits meets the invariant. -/
theorem resting_inv (stream : List Byte) (hf : (Memory.cells 0 stream).wf)
    (hl : ∀ c ∈ Memory.cells 0 stream, c.1 < 64) : (holding stream).Inv where
  legal := by show 44 ≤ (200 : Word).toNat; decide
  casForm := hf
  outForm := List.Pairwise.nil
  casInside := hl
  outInside := fun _ h => absurd h List.not_mem_nil
  busyIff := ⟨(fun h => by cases h), fun h => h.elim (absurd rfl) (absurd rfl)⟩
  oneRun := fun _ => rfl
  doneIdle := fun h => by cases h
  errDone := fun h => by cases h
  errCoded := ⟨fun _ => rfl, fun _ => rfl⟩
  modeUnset := fun _ => rfl
  wpLow := by show 44 ≤ (44 : Word).toNat; decide
  wpHigh := by show (44 : Word).toNat ≤ (200 : Word).toNat; decide
  lengthOf := .inl rfl
  samples := fun a h1 h2 => absurd h2 (Nat.not_lt.mpr h1)
  header := fun h => absurd rfl h
  config := fun h => absurd rfl h
  portBaud := fun h => absurd rfl h
  cursor := fun h => absurd rfl h
  recorded := fun h => by cases h
  scanEnd := fun h => by cases h
  tailShort := fun _ h => by cases h
  chunkEnds := fun h => by cases h

/-- A marker alone is a truncated block in one turn; an empty stream is a run without an error in two. -/
theorem witness_RunEqualsProgramOfItsTrace :
    ((holding syncMarker).Inv ∧ (holding syncMarker).quiet ∧ configOk (holding syncMarker) = true ∧
      ∃ a t, exec .start (holding syncMarker) = .next a ∧ a.after 1 = .next t ∧ t.status.done = true ∧
        t.status.errcode = .truncatedBlock) ∧
    ((holding []).Inv ∧ (holding []).quiet ∧ configOk (holding []) = true ∧
      ∃ a t, exec .start (holding []) = .next a ∧ a.after 2 = .next t ∧ t.status.done = true ∧
        t.status.errcode = .none) :=
  ⟨⟨resting_inv _ (by decide) (by decide), ⟨rfl, rfl, rfl, rfl⟩, by decide, _, _, rfl, rfl, rfl, rfl⟩,
    ⟨resting_inv _ (by decide) (by decide), ⟨rfl, rfl, rfl, rfl⟩, by decide, _, _, rfl, rfl, rfl, rfl⟩⟩

/-- Two blocks at rest that differ in the rest of their states: CAS memory beyond the stream, the result of an earlier
run, a capacity. -/
theorem witness_ResultDependsOnInputsAlone :
    (holding []).quiet ∧ ({ finished with cas := [(3, 7)] } : State).quiet ∧ configOk (holding []) = true ∧
    configOk { finished with cas := [(3, 7)] } = true ∧ (holding []).cfg.outCap = finished.cfg.outCap ∧
    (holding []).baud = finished.baud ∧ (holding []).leadinS = finished.leadinS ∧
    (holding []).casLen = finished.casLen ∧ (∀ x, ¬ x < (holding []).casLen.toNat) ∧
    (∃ a₁, exec .start (holding []) = .next a₁) ∧ ∃ a₂, exec .start { finished with cas := [(3, 7)] } = .next a₂ :=
  ⟨⟨rfl, rfl, rfl, rfl⟩, ⟨rfl, rfl, rfl, rfl⟩, by decide, by decide, rfl, rfl, rfl, rfl, fun x => Nat.not_lt_zero x,
    ⟨_, rfl⟩, ⟨_, rfl⟩⟩

theorem witness_TraceLengthBound : (block 1200 64 44).quiet ∧
    ∃ a t, exec .start (block 1200 64 44) = .next a ∧ a.after 2 = .next t ∧ t.trace = [0x50000000] :=
  ⟨⟨rfl, rfl, rfl, rfl⟩, _, _, rfl, rfl, by decide +kernel⟩

theorem witness_OutputLengthIsSumOfTrace : (block 1200 64 44).quiet ∧
    baudFactor (block 1200 64 44).baud = some 1 ∧
    ∃ a t, exec .start (block 1200 64 44) = .next a ∧ a.after 2 = .next t ∧
      t.status.done = true ∧ t.status.err = false :=
  ⟨⟨rfl, rfl, rfl, rfl⟩, by decide, _, _, rfl, rfl, rfl, rfl⟩

end Sys2Proof.Tests
end

section
/-! The register port and the power-on reset: what a host access does to the state (R22 to R30, R40 to R42). -/

namespace Sys2Proof.Proofs

open Sys2Proof.Machine Sys2Proof.Laws

/-! ## The STATUS word -/

/-- The fields of STATUS at their places (R28), each by its numeric code. -/
theorem status_word_toNat (x : Status) :
    x.word.toNat = x.busy.toNat + 2 * x.done.toNat + 4 * x.err.toNat + 16 * x.errcode.code.toNat
      + 256 * x.mode.code.toNat + 1024 * x.modeValid.toNat := by
  simp only [Status.word, append_toNat, BitVec.toNat_ofBool, BitVec.ofNat_eq_ofNat, BitVec.toNat_ofNat]
  omega

/-- Settles O43: the word by the codes, and the codes in numbers. -/
theorem statusWordFields : Obligations.StatusWordFields := by
  intro x code mode hcode hmode
  have herr : x.errcode.code.toNat = code := by
    rcases hcode with ⟨he, rfl⟩ | ⟨he, rfl⟩ | ⟨he, rfl⟩ | ⟨he, rfl⟩ | ⟨he, rfl⟩ <;> rw [he] <;> rfl
  have hmod : x.mode.code.toNat = mode := by
    rcases hmode with ⟨hm, rfl⟩ | ⟨hm, rfl⟩ | ⟨hm, rfl⟩ | ⟨hm, rfl⟩ <;> rw [hm] <;> rfl
  rw [status_word_toNat, herr, hmod]

/-! ## Register accesses by offset -/

@[simp] theorem portAccessOk_word (offset : Nat) :
    portAccessOk .word offset = true ↔ offset % 4 = 0 ∧ offset < 256 := by
  simp [portAccessOk]

theorem portAccessOk_eq_false {w : Width} {offset : Nat} (h : w ≠ .word ∨ offset % 4 ≠ 0 ∨ 256 ≤ offset) :
    portAccessOk w offset = false := by
  rcases h with h | h | h <;> simp [portAccessOk, h]

theorem step_host {s : State} {op : HostOp} {rest : List Turn} {o : Host.Outcome State Fault Refusal}
    (hs : s.schedule = .host op :: rest) (ho : hostAccess op { s with schedule := rest } = .settled o) :
    step s = o :=
  step_of_settled ((fetch_host hs).trans ho)

theorem step_writeReg {s : State} {offset : Nat} {v : Word} {rest : List Turn}
    (hs : s.schedule = .host (.writeReg .word offset v) :: rest) (hok : offset % 4 = 0 ∧ offset < 256)
    (h0 : offset ≠ 0) : step s = .next (writeRegister offset v { s with schedule := rest }) :=
  step_host hs (by simp [hostAccess, hok, h0])

theorem step_readReg {s : State} {offset : Nat} {rest : List Turn}
    (hs : s.schedule = .host (.readReg .word offset) :: rest) (hok : offset % 4 = 0 ∧ offset < 256) :
    step s = .next { (readRegister offset { s with schedule := rest }).2 with
      readData := (readRegister offset { s with schedule := rest }).1 } :=
  step_host hs (by simp [hostAccess, hok])

/-- R42, and R41 for the other offsets: while BUSY no register write has an effect. -/
theorem writeRegister_busy {s : State} (h : s.status.busy = true) (offset : Nat) (v : Word) :
    writeRegister offset v s = s := by
  simp [writeRegister, h]

/-- R41: a write elsewhere than to a configuration register has no effect. -/
theorem writeRegister_other {offset : Nat} (h8 : offset ≠ 0x08) (hC : offset ≠ 0x0C) (h10 : offset ≠ 0x10) (v : Word)
    (s : State) : writeRegister offset v s = s := by
  simp [writeRegister, h8, hC, h10]

theorem writeRegister_baud {s : State} (h : s.status.busy = false) (v : Word) :
    writeRegister 0x08 v s = { s with baud := v } := by
  simp [writeRegister, h]

theorem writeRegister_leadinS {s : State} (h : s.status.busy = false) (v : Word) :
    writeRegister 0x0C v s = { s with leadinS := v } := by
  simp [writeRegister, h]

theorem writeRegister_casLen {s : State} (h : s.status.busy = false) (v : Word) :
    writeRegister 0x10 v s = { s with casLen := v } := by
  simp [writeRegister, h]

/-- R28: STATUS of a block that is not busy, where no CAS write put the mode in doubt. -/
theorem statusFields_rest {s : State} (hb : s.status.busy = false) (ht : s.casTainted = false) :
    statusFields s = (s.status, s) := by
  simp [statusFields, taintedMode, hb, ht]

/-- R30: `OUT_LEN` where no CAS write put it in doubt. -/
theorem outLenRead_defined {s : State} (h : s.casTainted = false ∨ s.status.done = false) :
    outLenRead s = (s.outLen, s) := by
  rcases h with h | h <;> simp [outLenRead, h]

/-- R41: CTRL and the reserved offsets read 0. -/
theorem readRegister_reserved {offset : Nat} (h : offset = 0 ∨ 0x1C ≤ offset) (s : State) :
    readRegister offset s = (0, s) := by
  simp only [readRegister]
  repeat rw [if_neg (by omega)]

/-- Settles O39. -/
theorem configWritesIgnoredWhileBusy : Obligations.ConfigWritesIgnoredWhileBusy := by
  intro s offset v rest hs hb ho
  rw [step_writeReg hs (by omega) (by omega), writeRegister_busy (s := { s with schedule := rest }) hb]

/-- Settles O40, offset by offset. -/
theorem registerWrites : Obligations.RegisterWrites := by
  intro s offset v rest hs
  refine ⟨?_, ?_, ?_, fun ho => ?_⟩
  · rintro hb rfl
    rw [step_writeReg hs (by omega) (by omega), writeRegister_baud (s := { s with schedule := rest }) hb]
  · rintro hb rfl
    rw [step_writeReg hs (by omega) (by omega), writeRegister_leadinS (s := { s with schedule := rest }) hb]
  · rintro hb rfl
    rw [step_writeReg hs (by omega) (by omega), writeRegister_casLen (s := { s with schedule := rest }) hb]
  · rw [step_writeReg hs (by omega) (by omega), writeRegister_other (by omega) (by omega) (by omega)]

/-- Settles O41: the value each offset reads, and that the read itself leaves the state as it was. -/
theorem registerReads : Obligations.RegisterReads := by
  intro s offset rest v hs hv
  have hread : readRegister offset { s with schedule := rest } = (v, { s with schedule := rest }) := by
    rcases hv with ⟨rfl, rfl⟩ | ⟨rfl, hb, ht, rfl⟩ | ⟨rfl, rfl⟩ | ⟨rfl, rfl⟩ | ⟨rfl, rfl⟩ | ⟨rfl, hdef, rfl⟩ |
      ⟨rfl, rfl⟩ | ⟨hlow, -, -, rfl⟩
    · exact readRegister_reserved (.inl rfl) _
    · simp only [readRegister, statusFields_rest (s := { s with schedule := rest }) hb ht, if_true]
    · rfl
    · rfl
    · rfl
    · exact outLenRead_defined hdef
    · rfl
    · exact readRegister_reserved (.inr hlow) _
  rw [step_readReg hs (by omega), hread]

/-- Settles O44. -/
theorem portAccessRefused : Obligations.PortAccessRefused := by
  intro s w offset v rest h
  have hok := portAccessOk_eq_false h
  exact ⟨fun hs => step_host hs (by simp [hostAccess, hok]), fun hs => step_host hs (by simp [hostAccess, hok])⟩

/-! ## Reset -/

/-- R64: no OUT address has a defined value before a run is done. -/
theorem outDefined_of_not_done {s : State} (h : s.status.done = false) (a : Nat) : outDefined s a = false := by
  simp [outDefined, h]

@[simp] theorem status_clear_word : Status.clear.word = 0 := by decide

/-- Settles O49, with the fields of `powerOnReset`. -/
theorem powerOnResetsRegisters : Obligations.PowerOnResetsRegisters := by
  intro s rest hs
  refine ⟨powerOnReset { s with schedule := rest }, step_host hs rfl, ?_⟩
  simpa using outDefined_of_not_done (s := powerOnReset { s with schedule := rest }) rfl

/-- Settles O50: the fields of `State.powerOn` as they are written there. -/
theorem resetValues : Obligations.ResetValues :=
  fun _ => ⟨status_clear_word, rfl, rfl, rfl, rfl, rfl, rfl, rfl, rfl, rfl, rfl, rfl⟩

end Sys2Proof.Proofs
end

section
/-! The parts of the invariant `State.Inv`, each stated of the fields it speaks of, so that an update of other fields
keeps it by definition, and the situations the block can be in between two turns. -/

namespace Sys2Proof.Proofs

open Sys2Proof.Machine Sys2Proof.Laws

/-- The part of `State.Inv` about STATUS alone (R28, R304). -/
structure StatusOk (x : Status) : Prop where
  doneIdle : x.done = true → x.busy = false
  errDone : x.err = true → x.done = true
  errCoded : x.errcode = .none ↔ x.err = false
  modeUnset : x.modeValid = false → x.mode = .unknown

/-- The part about the memories and the write pointer (R8, R35, R60, R78, R124, R125). -/
structure MemoryOk (c : Config) (cas out : Memory) (wp : Word) : Prop where
  legal : c.legal
  casForm : cas.wf
  outForm : out.wf
  casInside : ∀ x ∈ cas, x.1 < c.casCap.toNat
  outInside : ∀ x ∈ out, x.1 < c.outCap.toNat
  wpLow : 44 ≤ wp.toNat
  wpHigh : wp.toNat ≤ c.outCap.toNat
  samples : ∀ a, 44 ≤ a → a < wp.toNat → ∃ b, out.read a = some b ∧ b ≠ 0

/-- The part about the published length (R30, R240, R244). -/
structure ResultOk (x : Status) (out : Memory) (outLen wp : Word) : Prop where
  lengthOf : outLen = 0 ∨ (x.done = true ∧ x.err = false ∧ outLen = wp)
  header : outLen ≠ 0 → ∀ a, a < 44 → (out.read a).isSome = true

/-- What a TPSM run keeps whatever state it is in (R32, R219, R261, R266). -/
structure TpsmRun (s : State) : Prop where
  noProgram : s.prog = none
  busy : s.status.busy = true
  config : configOk s = true
  cursor : s.pos.toNat ≤ s.casLen.toNat

/-- What a line of the policy promises while DISPATCHING (R210, R217). -/
def StageOk (s : State) : Stage → Prop
  | .silence => True
  | .header => True
  | .bytes => True
  | .tail t0 => t0.toNat ≤ s.pos.toNat ∧ s.casLen.toNat - t0.toNat < 8
  | .chunkEnd => s.pos = s.casLen ∨
      (8 ≤ bytesLeft s ∧ (s.casTainted = false → casBytes s s.pos.toNat 8 = syncMarker))

/-- What is in progress: nothing, a program of the micro-operation port, or a TPSM run in one of its three states. -/
inductive Situation (s : State) : Prop
  | rest (idle : s.st = .idle) (noProgram : s.prog = none) (quiet : s.status.busy = false)
  | program (ws : List Word) (idle : s.st = .idle) (loaded : s.prog = some ws) (busy : s.status.busy = true)
      (baud : (baudFactor s.baud).isSome = true)
  | scanning (state : s.st = .scanning) (run : TpsmRun s)
  | dispatching (state : s.st = .dispatching) (run : TpsmRun s) (recorded : s.status.modeValid = true)
      (stage : StageOk s s.stage)
  | finishing (state : s.st = .done) (run : TpsmRun s) (scanEnd : bytesLeft s < 8)

/-- `State.Inv` by its parts; `parts_of_inv` and `Parts.inv` say that it is the same. -/
structure Parts (s : State) : Prop where
  status : StatusOk s.status
  memory : MemoryOk s.cfg s.cas s.out s.wp
  result : ResultOk s.status s.out s.outLen s.wp
  situation : Situation s

theorem situation_of_inv {s : State} (h : s.Inv) : Situation s := by
  have run (hst : s.st ≠ .idle) : TpsmRun s :=
    ⟨h.oneRun hst, h.busyIff.mpr (.inl hst), h.config hst, h.cursor hst⟩
  cases hst : s.st with
  | idle =>
    cases hp : s.prog with
    | none =>
      refine .rest hst hp (Bool.eq_false_iff.mpr fun hb => ?_)
      exact (h.busyIff.mp hb).elim (absurd hst) (absurd hp)
    | some ws => exact .program ws hst hp (h.busyIff.mpr (.inr (by simp [hp]))) (h.portBaud (by simp [hp]))
  | scanning => exact .scanning hst (run (by simp [hst]))
  | dispatching =>
    refine .dispatching hst (run (by simp [hst])) (h.recorded hst) ?_
    cases hg : s.stage with
    | silence => trivial
    | header => trivial
    | bytes => trivial
    | tail t0 => exact h.tailShort t0 hst hg
    | chunkEnd => exact h.chunkEnds hst hg
  | done => exact .finishing hst (run (by simp [hst])) (h.scanEnd hst)

theorem parts_of_inv {s : State} (h : s.Inv) : Parts s where
  status := ⟨h.doneIdle, h.errDone, h.errCoded, h.modeUnset⟩
  memory := ⟨h.legal, h.casForm, h.outForm, h.casInside, h.outInside, h.wpLow, h.wpHigh, h.samples⟩
  result := ⟨h.lengthOf, h.header⟩
  situation := situation_of_inv h

/-- The invariant of a state that is not in a TPSM run. -/
theorem Parts.inv_of_idle {s : State} (h : Parts s) (hst : s.st = .idle)
    (hbusy : s.status.busy = true ↔ s.prog ≠ none) (hbaud : s.prog ≠ none → (baudFactor s.baud).isSome = true) :
    s.Inv :=
  { h.status, h.memory, h.result with
    busyIff := by simpa [hst] using hbusy
    oneRun := absurd hst
    config := absurd hst
    portBaud := hbaud
    cursor := absurd hst
    recorded := by simp [hst]
    scanEnd := by simp [hst]
    tailShort := by simp [hst]
    chunkEnds := by simp [hst] }

/-- The invariant of a state in a TPSM run. -/
theorem Parts.inv_of_run {s : State} (h : Parts s) (run : TpsmRun s) (hst : s.st ≠ .idle)
    (recorded : s.st = .dispatching → s.status.modeValid = true ∧ StageOk s s.stage)
    (scanEnd : s.st = .done → bytesLeft s < 8) : s.Inv :=
  { h.status, h.memory, h.result with
    busyIff := ⟨fun _ => .inl hst, fun _ => run.busy⟩
    oneRun := fun _ => run.noProgram
    config := fun _ => run.config
    portBaud := absurd run.noProgram
    cursor := fun _ => run.cursor
    recorded := fun hd => (recorded hd).1
    scanEnd := scanEnd
    tailShort := fun t0 hd hg => by simpa [hg, StageOk] using (recorded hd).2
    chunkEnds := fun hd hg => by simpa [hg, StageOk] using (recorded hd).2 }

theorem Parts.inv {s : State} (h : Parts s) : s.Inv := by
  cases h.situation with
  | rest idle noProgram quiet => exact h.inv_of_idle idle (by simp [noProgram, quiet]) (absurd noProgram)
  | program ws idle loaded busy baud => exact h.inv_of_idle idle (by simp [loaded, busy]) fun _ => baud
  | scanning state run => exact h.inv_of_run run (by simp [state]) (by simp [state]) (by simp [state])
  | dispatching state run recorded stage =>
    exact h.inv_of_run run (by simp [state]) (fun _ => ⟨recorded, stage⟩) (by simp [state])
  | finishing state run scanEnd => exact h.inv_of_run run (by simp [state]) (by simp [state]) fun _ => scanEnd

end Sys2Proof.Proofs
end

section
/-! What storing samples and writing the WAV header keep of the memories, and the micro-operations of a block with a
legal baud rate (R122 to R126, R240 to R244). -/

namespace Sys2Proof.Proofs

open Sys2Proof.Machine Sys2Proof.Laws

/-! ## Samples -/

/-- No entry of the ROM is 0, and none is read beyond it (R142). -/
theorem romAt_ne_zero (m : Nat) : romAt m ≠ 0 := by
  have hmem : romAt m ∈ rom36 ∨ romAt m = midline := by
    rw [romAt, List.getD_eq_getElem?_getD]
    cases h : rom36[m]? with
    | none => exact .inr rfl
    | some b => exact .inl (List.mem_of_getElem? h)
  have hrom : ∀ b ∈ rom36, b ≠ 0 := by decide
  rcases hmem with h | h
  · exact hrom _ h
  · rw [h]; decide

theorem pulseSamples_ne_zero {k : Nat} {t : Tone} {b : Byte} (h : b ∈ pulseSamples k t) : b ≠ 0 := by
  obtain ⟨n, -, rfl⟩ := List.mem_map.mp h
  exact romAt_ne_zero _

theorem bitSamples_ne_zero {k : Nat} {v : Bool} {b : Byte} (h : b ∈ bitSamples k v) : b ≠ 0 := by
  rw [bitSamples] at h
  split at h
  · exact (List.mem_append.mp h).elim pulseSamples_ne_zero pulseSamples_ne_zero
  · exact pulseSamples_ne_zero h

theorem pulseTrain_ne_zero {n k : Nat} {t : Tone} {b : Byte} (h : b ∈ (List.replicate n (pulseSamples k t)).flatten) :
    b ≠ 0 := by
  obtain ⟨l, hl, hb⟩ := List.mem_flatten.mp h
  exact pulseSamples_ne_zero (List.eq_of_mem_replicate hl ▸ hb)

/-- R124: no micro-operation emits a sample 0. -/
theorem microSamples_ne_zero {k : Nat} {i : Instr} {b : Byte} (h : b ∈ microSamples k i) : b ≠ 0 := by
  cases i with
  | sil n => rw [List.eq_of_mem_replicate h]; decide
  | pulse t => exact pulseSamples_ne_zero h
  | hdr p => exact pulseTrain_ne_zero h
  | byte d =>
    rw [microSamples, byteSamples, List.mem_append, List.mem_append, List.mem_flatMap] at h
    obtain (h | ⟨j, -, h⟩) | h := h
    · exact pulseSamples_ne_zero h
    · exact bitSamples_ne_zero h
    · exact pulseTrain_ne_zero h
  | fin => cases h
  | start => cases h
  | srst => cases h

/-- Samples stored at `wp` onward, inside the capacity, keep what the rules promise of the memories. -/
theorem memoryOk_store {c : Config} {cas out : Memory} {wp wp' : Word} {vs : List Byte} (h : MemoryOk c cas out wp)
    (hwp : wp'.toNat = wp.toNat + vs.length) (hcap : wp'.toNat ≤ c.outCap.toNat) (hvs : ∀ b ∈ vs, b ≠ 0) :
    MemoryOk c cas (out.writeRun wp.toNat vs) wp' :=
  { h with
    outForm := memory_writeRun_wf _ _ _ h.outForm
    outInside := fun x hx => by
      rcases memory_writeRun_mem _ _ _ x hx with hx | hx
      · exact h.outInside x hx
      · omega
    wpLow := by have := h.wpLow; omega
    wpHigh := hcap
    samples := fun a h1 h2 => by
      rw [memory_read_writeRun]
      split
      next ha =>
        have hlt : a - wp.toNat < vs.length := by omega
        exact ⟨_, List.getElem?_eq_getElem hlt, hvs _ (List.getElem_mem hlt)⟩
      next ha => exact h.samples a h1 (by omega) }

/-- What a run of emissions comes to: its samples fit and are stored, or OUTPUT_OVERFLOW is raised where the memory is
full (R122, R126). Either way the memories are as the rules promise. -/
theorem emitAll_cases {es : List Emission} {r : Transient} {s : State} (h : MemoryOk s.cfg s.cas s.out s.wp)
    (hes : ∀ b ∈ samplesOf es, b ≠ 0) :
    ∃ out wp regs, MemoryOk s.cfg s.cas out wp ∧
      (emitAll es r s = { s with out := out, wp := wp, regs := regs } ∨
        ∃ x, emitAll es r s = raiseError .outputOverflow x { s with out := out, wp := wp, regs := regs }) := by
  have hcap := s.cfg.outCap.isLt
  by_cases hfit : s.wp.toNat + es.length ≤ s.cfg.outCap.toNat
  · have hwp : (s.wp + BitVec.ofNat 32 es.length).toNat = s.wp.toNat + es.length := by
      rw [BitVec.toNat_add, BitVec.toNat_ofNat]
      omega
    exact ⟨_, _, _, memoryOk_store h (by rw [hwp, samplesOf_length]) (by omega) hes, .inl (emitAll_fits es r s hfit)⟩
  · have hhigh := h.wpHigh
    obtain ⟨regs, hraise⟩ := emitAll_overflow es r s hhigh (by omega)
    refine ⟨_, _, _, memoryOk_store h ?_ (Nat.le_refl _) fun b hb => hes b (List.mem_of_mem_take hb), .inr ⟨_, hraise⟩⟩
    rw [List.length_take, samplesOf_length]
    omega

/-- A sample-writing micro-operation at a legal baud rate: its samples are stored and it completes, or OUTPUT_OVERFLOW
is raised. -/
theorem exec_emits_cases {i : Instr} {s : State} (h : MemoryOk s.cfg s.cas s.out s.wp)
    (hbaud : (baudFactor s.baud).isSome = true) (hi : i.isMicroOp = true) (hf : i ≠ .fin) :
    ∃ out wp regs, MemoryOk s.cfg s.cas out wp ∧
      (exec i s = .next { s with out := out, wp := wp, regs := regs } ∨
        ∃ x, exec i s = .next (raiseError .outputOverflow x { s with out := out, wp := wp, regs := regs })) := by
  obtain ⟨k, hk⟩ := Option.isSome_iff_exists.mp hbaud
  obtain ⟨es, r, hes, hexec⟩ := exec_emits hk i hi hf
  obtain ⟨out, wp, regs, hmem, hemit⟩ := emitAll_cases (r := r) h fun b hb => microSamples_ne_zero (hes ▸ hb)
  exact ⟨out, wp, regs, hmem, hemit.imp (fun e => by rw [hexec, e]) fun ⟨x, e⟩ => ⟨x, by rw [hexec, e]⟩⟩

/-! ## The WAV header -/

/-- The address belongs to a field of the header layout (R241). -/
def Covers (f : HeaderField) (a : Nat) : Prop := f.offset ≤ a ∧ a < f.offset + f.bytes.length

/-- R241: the fields cover the addresses 0 to 43. -/
theorem headerFields_cover (d : Word) (a : Nat) : (∃ f ∈ headerFields d, Covers f a) ↔ a < 44 := by
  simp [headerFields, Covers, le32, le16]
  omega

theorem writeHeader_wf {m : Memory} (fs : List HeaderField) (h : m.wf) : (writeHeader fs m).wf := by
  induction fs generalizing m with
  | nil => exact h
  | cons f fs ih => exact ih (memory_writeRun_wf _ _ _ h)

theorem writeHeader_mem {m : Memory} {fs : List HeaderField} {x : Host.Cell} (h : x ∈ writeHeader fs m) :
    x ∈ m ∨ ∃ f ∈ fs, Covers f x.1 := by
  induction fs generalizing m with
  | nil => exact .inl h
  | cons f fs ih =>
    rcases ih h with h | ⟨g, hg, hc⟩
    · exact (memory_writeRun_mem _ _ _ _ h).imp_right fun hc => ⟨f, List.mem_cons_self, hc⟩
    · exact .inr ⟨g, List.mem_cons_of_mem f hg, hc⟩

theorem writeField_read_outside (m : Memory) {f : HeaderField} {a : Nat} (h : ¬ Covers f a) :
    (m.writeRun f.offset f.bytes).read a = m.read a := by
  rw [memory_read_writeRun]
  exact if_neg h

theorem writeField_read_isSome (m : Memory) {f : HeaderField} {a : Nat} (h : Covers f a) :
    ((m.writeRun f.offset f.bytes).read a).isSome = true := by
  obtain ⟨hlow, hhigh⟩ := h
  rw [memory_read_writeRun, if_pos ⟨hlow, hhigh⟩, List.getElem?_eq_getElem (by omega)]
  rfl

/-- The header leaves every address outside its fields as it was. -/
theorem writeHeader_read_outside (m : Memory) (fs : List HeaderField) {a : Nat} (h : ∀ f ∈ fs, ¬ Covers f a) :
    (writeHeader fs m).read a = m.read a := by
  induction fs generalizing m with
  | nil => rfl
  | cons f fs ih =>
    exact (ih _ fun g hg => h g (List.mem_cons_of_mem f hg)).trans (writeField_read_outside m (h f List.mem_cons_self))

/-- A byte stands at every address a field covers, and where one stood before. -/
theorem writeHeader_read_isSome (m : Memory) (fs : List HeaderField) {a : Nat}
    (h : (m.read a).isSome = true ∨ ∃ f ∈ fs, Covers f a) : ((writeHeader fs m).read a).isSome = true := by
  induction fs generalizing m with
  | nil => exact h.resolve_right (by simp)
  | cons f fs ih =>
    refine ih _ ?_
    by_cases hc : Covers f a
    · exact .inl (writeField_read_isSome m hc)
    · rw [writeField_read_outside m hc]
      refine h.imp_right fun ⟨g, hg, hga⟩ => ⟨g, ?_, hga⟩
      exact (List.mem_cons.mp hg).resolve_left fun e => hc (e ▸ hga)

/-- Fields below address 44 keep what the rules promise of the memories: the samples stand above them (R63, R240). -/
theorem memoryOk_writeHeader {c : Config} {cas out : Memory} {wp : Word} {fs : List HeaderField}
    (hfs : ∀ a, (∃ f ∈ fs, Covers f a) → a < 44) (h : MemoryOk c cas out wp) :
    MemoryOk c cas (writeHeader fs out) wp :=
  { h with
    outForm := writeHeader_wf fs h.outForm
    outInside := fun x hx => by
      rcases writeHeader_mem hx with hx | hx
      · exact h.outInside x hx
      · exact Nat.lt_of_lt_of_le (hfs _ hx) h.legal
    samples := fun a h1 h2 => by
      rw [writeHeader_read_outside _ _ fun f hf hc => absurd (hfs a ⟨f, hf, hc⟩) (Nat.not_lt.mpr h1)]
      exact h.samples a h1 h2 }

theorem memoryOk_header {c : Config} {cas out : Memory} {wp : Word} (d : Word) (h : MemoryOk c cas out wp) :
    MemoryOk c cas (writeHeader (headerFields d) out) wp :=
  memoryOk_writeHeader (fun a => (headerFields_cover d a).mp) h

theorem writeHeader_read_low (d : Word) (m : Memory) {a : Nat} (ha : a < 44) :
    ((writeHeader (headerFields d) m).read a).isSome = true :=
  writeHeader_read_isSome m _ (.inr ((headerFields_cover d a).mpr ha))

/-! ## Decoding what the TPSM issues -/

/-- A word decodes to micro-operations alone (R101). -/
theorem decodeMop_isMicroOp {w : Word} {i : Instr} (h : decodeMop w = .ok i) : i.isMicroOp = true := by
  unfold decodeMop at h
  dsimp only at h
  repeat' split at h
  all_goals cases h
  all_goals rfl

/-- Opcode 5 alone is FIN (R97, R98). -/
theorem opField_of_decodeMop_fin {w : Word} (h : decodeMop w = .ok .fin) : opField w = 0x5 := by
  unfold decodeMop at h
  dsimp only at h
  repeat' split at h
  all_goals cases h
  assumption

/-- Of the encoded micro-operations FIN alone decodes to FIN. -/
theorem eq_fin_of_decodeMop_encode {i : Instr} (h : decodeMop (encode i) = .ok .fin) : i = .fin := by
  have hop : (encode i).toNat / 2 ^ 28 = 5 := by
    rw [← opField_toNat, opField_of_decodeMop_fin h]
    rfl
  rw [encode_toNat] at hop
  cases i with
  | sil n => dsimp only at hop; omega
  | pulse t => have := (toneBit t).isLt; dsimp only at hop; omega
  | hdr p => dsimp only at hop; omega
  | byte d => have := d.isLt; dsimp only at hop; omega
  | fin => rfl
  | start => cases hop
  | srst => cases hop

theorem decodeMop_encode_fin : decodeMop (encode .fin) = .ok .fin := by decide

end Sys2Proof.Proofs
end

section
/-! The invariant right after reset (R40), and that it is kept by the operations that end or begin a run: an error
(R304), the two endings (R262, R266), the host commands (R260, R263) and the entry of a program (R266). -/

namespace Sys2Proof.Proofs

open Sys2Proof.Machine Sys2Proof.Laws

/-! ## Updates the invariant does not look at, or looks at in one part -/

/-- The schedule, the free values drawn, what the host read and the trace are no part of the invariant (log 3,
7, 16). -/
theorem inv_observations {s : State} (h : s.Inv) (turns : List Turn) (n : Nat) (v : Word) (ws : List Word) :
    ({ s with schedule := turns, draws := n, readData := v, trace := ws } : State).Inv :=
  { h with }

/-- Where STATUS, the memories, `wp` and `OUT_LEN` stay, the invariant asks for the situation alone. -/
structure SameStores (s t : State) : Prop where
  status : t.status = s.status := by rfl
  cfg : t.cfg = s.cfg := by rfl
  cas : t.cas = s.cas := by rfl
  out : t.out = s.out := by rfl
  wp : t.wp = s.wp := by rfl
  outLen : t.outLen = s.outLen := by rfl

theorem inv_of_situation {s t : State} (h : s.Inv) (same : SameStores s t) (ht : Situation t) : t.Inv := by
  obtain ⟨hstatus, hmemory, hresult, -⟩ := parts_of_inv h
  obtain ⟨status, cfg, cas, out, wp, outLen⟩ := same
  exact Parts.inv ⟨status ▸ hstatus, by rwa [cfg, cas, out, wp], by rwa [status, out, outLen, wp], ht⟩

/-- R28: the result of a run in progress is not there yet. -/
theorem run_has_no_result {s : State} (h : s.Inv) (hb : s.status.busy = true) :
    s.status.done = false ∧ s.status.err = false ∧ s.outLen = 0 := by
  have hdone : s.status.done = false := by
    cases hd : s.status.done with
    | false => rfl
    | true => rw [h.doneIdle hd] at hb; cases hb
  refine ⟨hdone, ?_, h.lengthOf.resolve_right fun hl => ?_⟩
  · cases he : s.status.err with
    | false => rfl
    | true => rw [h.errDone he] at hdone; cases hdone
  · rw [hl.1] at hdone; cases hdone

theorem resultOk_zero (x : Status) (out : Memory) (wp : Word) : ResultOk x out 0 wp :=
  ⟨.inl rfl, absurd rfl⟩

theorem inv_samples {s : State} (h : s.Inv) (hb : s.status.busy = true) {out : Memory} {wp : Word}
    (hmem : MemoryOk s.cfg s.cas out wp) (regs : Transient) :
    ({ s with out := out, wp := wp, regs := regs } : State).Inv :=
  { hmem, h with
    lengthOf := .inl (run_has_no_result h hb).2.2
    header := absurd (run_has_no_result h hb).2.2 }

/-! ## The end and the beginning of a run -/

/-- R304: taking an error. -/
theorem inv_raiseError {s : State} {e : ErrCode} (h : s.Inv) (he : e ≠ .none) (x : Option ErrorInfo) :
    (raiseError e x s).Inv :=
  Parts.inv {
    status := ⟨fun _ => rfl, fun _ => rfl, by simp [he], h.modeUnset⟩
    memory := (parts_of_inv h).memory
    result := resultOk_zero _ _ _
    situation := .rest rfl rfl rfl }

theorem statusOk_ended {x : Status} (h : StatusOk x) : StatusOk { x with busy := false, done := true } :=
  ⟨fun _ => rfl, fun _ => rfl, h.errCoded, h.modeUnset⟩

/-- R266: a program that ends without FIN has no length. -/
theorem inv_endRun {s : State} (h : s.Inv) (hb : s.status.busy = true) : (endRun s).Inv :=
  Parts.inv {
    status := statusOk_ended (parts_of_inv h).status
    memory := (parts_of_inv h).memory
    result := by rw [endRun_outLen, (run_has_no_result h hb).2.2]; exact resultOk_zero _ _ _
    situation := .rest rfl rfl rfl }

/-- R244, R262: FIN and the end of its run publish the length and the header together. -/
theorem inv_fin_endRun {s t : State} (h : s.Inv) (hb : s.status.busy = true) (ht : exec .fin s = .next t) :
    (endRun t).Inv := by
  cases ht
  exact Parts.inv {
    status := statusOk_ended (parts_of_inv h).status
    memory := memoryOk_header _ (parts_of_inv h).memory
    result := ⟨.inr ⟨rfl, (run_has_no_result h hb).2.1, rfl⟩, fun _ a ha => writeHeader_read_low _ _ ha⟩
    situation := .rest rfl rfl rfl }

theorem statusOk_clear : StatusOk Status.clear := ⟨by decide, by decide, by decide, by decide⟩

theorem statusOk_busy : StatusOk { Status.clear with busy := true } := ⟨by decide, by decide, by decide, by decide⟩

/-- R35: right after reset and at a start the write pointer stands at the first sample address. -/
theorem memoryOk_wp44 {c : Config} {cas out : Memory} {wp : Word} (h : MemoryOk c cas out wp) :
    MemoryOk c cas out 44 :=
  { h with
    wpLow := Nat.le_refl 44
    wpHigh := h.legal
    samples := fun _ hlow hhigh => absurd hhigh (Nat.not_lt.mpr hlow) }

/-- Only in a block at rest a host access begins something. -/
theorem at_rest_of_not_busy {s : State} (h : s.Inv) (hb : s.status.busy = false) : s.st = .idle ∧ s.prog = none := by
  have hrun : ¬ (s.st ≠ .idle ∨ s.prog ≠ none) := fun hr => by rw [h.busyIff.mpr hr] at hb; cases hb
  simpa using hrun

theorem inv_rejectConfig {s : State} (h : s.Inv) (hb : s.status.busy = false) : (rejectConfig s).Inv :=
  Parts.inv {
    status := ⟨fun _ => rfl, fun _ => rfl, by simp, fun _ => rfl⟩
    memory := (parts_of_inv h).memory
    result := resultOk_zero _ _ _
    situation := .rest (at_rest_of_not_busy h hb).1 rfl rfl }

/-- R202, R261: a run begins with a legal configuration and the cursor at the stream's beginning. -/
theorem inv_beginRun {s : State} (h : s.Inv) (hok : configOk s = true) : (beginRun s).Inv :=
  Parts.inv {
    status := statusOk_busy
    memory := memoryOk_wp44 (parts_of_inv h).memory
    result := resultOk_zero _ _ _
    situation := .scanning rfl ⟨rfl, rfl, hok, Nat.zero_le _⟩ }

/-- R266: so does a program, as far as `BAUD` goes. -/
theorem inv_beginProgram {s : State} (h : s.Inv) (hb : s.status.busy = false) (ws : List Word) :
    (beginProgram ws s).Inv := by
  unfold beginProgram
  split
  next hbaud =>
    exact Parts.inv {
      status := statusOk_busy
      memory := memoryOk_wp44 (parts_of_inv h).memory
      result := resultOk_zero _ _ _
      situation := .program ws (at_rest_of_not_busy h hb).1 rfl rfl hbaud }
  next => exact inv_rejectConfig h hb

/-- R101, R260, R263: a command of the CTRL register. -/
theorem inv_command {i : Instr} {s t : State} (h : s.Inv) (hi : i.isMicroOp = false) (ht : exec i s = .next t) :
    t.Inv := by
  cases i with
  | start =>
    simp only [exec, execStart] at ht
    split at ht
    next => cases ht; exact h
    next hb =>
      split at ht
      next hok => cases ht; exact inv_beginRun h hok
      next => cases ht; exact inv_rejectConfig h (Bool.eq_false_iff.mpr hb)
  | srst =>
    cases ht
    exact Parts.inv {
      status := statusOk_clear
      memory := memoryOk_wp44 (parts_of_inv h).memory
      result := resultOk_zero _ _ _
      situation := .rest rfl rfl rfl }
  | sil n => cases hi
  | pulse x => cases hi
  | hdr p => cases hi
  | byte d => cases hi
  | fin => cases hi

/-! ## Reset -/

theorem parts_powerOn {c : Config} (h : c.legal) : Parts (State.powerOn c) where
  status := statusOk_clear
  memory := {
    legal := h
    casForm := List.Pairwise.nil
    outForm := List.Pairwise.nil
    casInside := by simp [State.powerOn]
    outInside := by simp [State.powerOn]
    wpLow := Nat.le_refl 44
    wpHigh := h
    samples := fun _ hlow hhigh => absurd hhigh (Nat.not_lt.mpr hlow) }
  result := resultOk_zero _ _ _
  situation := .rest rfl rfl rfl

/-- Settles O51. -/
theorem invAtReset : Obligations.InvAtReset :=
  ⟨(parts_powerOn (by decide)).inv, fun _ h => (parts_powerOn h).inv⟩

/-- R340, R341. -/
theorem inv_powerOnReset {s : State} (h : s.Inv) : (powerOnReset s).Inv := by
  obtain ⟨status, memory, result, -⟩ := parts_powerOn h.legal
  exact Parts.inv ⟨status, memory, result, .rest rfl rfl rfl⟩

end Sys2Proof.Proofs
end

section
/-! What a fetched turn leads to, and that the invariant is kept by the host's accesses (R41, R42, R60, R75), by the
words of the micro-operation port (R266) and by a word the TPSM issues (R201). -/

namespace Sys2Proof.Proofs

open Sys2Proof.Machine Sys2Proof.Laws

/-! ## What a fetched turn leads to -/

/-- Whatever state a fetched turn leads to meets the invariant. -/
def Keeps : Fetched → Prop
  | .run i s after => ∀ t, exec i s = .next t → (after t).Inv
  | .settled o => ∀ t, o = .next t → t.Inv

theorem inv_of_step {s t : State} (h : Keeps (fetch s)) (ht : step s = .next t) : t.Inv := by
  cases hf : fetch s with
  | run i u after =>
    obtain ⟨v, hv⟩ := exec_next i u
    rw [step_of_run hf, hv] at ht
    cases ht
    rw [hf] at h
    exact h v hv
  | settled o =>
    rw [step_of_settled hf] at ht
    rw [hf] at h
    exact h t ht

theorem keeps_next {t : State} (h : t.Inv) : Keeps (.settled (.next t)) := by
  rintro _ ⟨⟩
  exact h

theorem keeps_fault (r : Fault) : Keeps (.settled (.fault r)) := fun _ h => by cases h

theorem keeps_refused (r : Refusal) : Keeps (.settled (.refused r)) := fun _ h => by cases h

/-! ## The host's accesses -/

theorem statusFields_state (s : State) : ∃ n, (statusFields s).2 = { s with draws := n } := by
  unfold statusFields taintedMode
  dsimp only
  repeat' split
  all_goals exact ⟨_, rfl⟩

/-- R41: a register read draws free values at most. -/
theorem readRegister_state (offset : Nat) (s : State) : ∃ n, (readRegister offset s).2 = { s with draws := n } := by
  unfold readRegister
  split
  next => exact statusFields_state s
  next =>
    unfold outLenRead
    repeat' split
    all_goals exact ⟨_, rfl⟩

theorem outRead_state (a : Nat) (s : State) : ∃ n, (outRead a s).2 = { s with draws := n } := by
  unfold outRead
  repeat' split
  all_goals exact ⟨_, rfl⟩

/-- R42: the configuration registers change in a block at rest alone. -/
theorem inv_writeRegister {s : State} (h : s.Inv) (offset : Nat) (v : Word) : (writeRegister offset v s).Inv := by
  cases hb : s.status.busy with
  | true => rwa [writeRegister_busy hb]
  | false =>
    obtain ⟨idle, noProgram⟩ := at_rest_of_not_busy h hb
    unfold writeRegister
    repeat' split
    all_goals exact inv_of_situation h {} (.rest idle noProgram hb)

/-- R60, R75: a CAS write inside the capacity; during a run it taints what the block reads from then on. -/
theorem inv_writeCas {s : State} (h : s.Inv) {a : Word} (ha : a.toNat < s.cfg.casCap.toNat) (b : Byte) :
    ({ s with cas := s.cas.write a.toNat b, casTainted := s.casTainted || s.status.busy } : State).Inv :=
  { h with
    casForm := memory_write_wf _ _ _ h.casForm
    casInside := fun x hx => by
      rcases memory_writeRun_mem s.cas a.toNat [b] x hx with hx | ⟨hlow, hhigh⟩
      · exact h.casInside x hx
      · have : x.1 = a.toNat := by simp only [List.length_singleton] at hhigh; omega
        rwa [this]
    chunkEnds := fun hd hg => by
      have hb : s.status.busy = true := h.busyIff.mpr (.inl (by rw [show s.st = _ from hd]; decide))
      refine (h.chunkEnds hd hg).imp_right fun ⟨hleft, _⟩ => ⟨hleft, fun ht => ?_⟩
      simp [hb] at ht }

/-- R101: a CTRL write spells a host command alone. -/
theorem decodeCtrl_isCommand {c : Word} {i : Instr} (h : decodeCtrl c = .ok i) : i.isMicroOp = false := by
  unfold decodeCtrl at h
  repeat' split at h
  all_goals cases h
  all_goals rfl

theorem keeps_hostAccess {s : State} (h : s.Inv) (op : HostOp) : Keeps (hostAccess op s) := by
  cases op with
  | readReg w offset =>
    unfold hostAccess
    dsimp only
    split
    next =>
      obtain ⟨n, hn⟩ := readRegister_state offset s
      rw [hn]
      exact keeps_next (inv_observations h _ _ _ _)
    next => exact keeps_refused _
  | writeReg w offset v =>
    unfold hostAccess
    dsimp only
    split
    next =>
      split
      next =>
        cases hc : decodeCtrl v with
        | ok i => exact fun t ht => inv_command h (decodeCtrl_isCommand hc) ht
        | error e => exact keeps_next h
      next => exact keeps_next (inv_writeRegister h offset v)
    next => exact keeps_refused _
  | writeCas a b =>
    unfold hostAccess
    dsimp only
    split
    next ha => exact keeps_next (inv_writeCas h ha b)
    next => exact keeps_fault _
  | readOut a =>
    unfold hostAccess
    dsimp only
    split
    next =>
      obtain ⟨n, hn⟩ := outRead_state a.toNat s
      rw [hn]
      exact keeps_next (inv_observations h _ _ _ _)
    next => exact keeps_fault _
  | drive ws =>
    unfold hostAccess
    dsimp only
    split
    next => exact keeps_refused _
    next hb => exact keeps_next (inv_beginProgram h (Bool.eq_false_iff.mpr hb) ws)
  | powerOn => exact keeps_next (inv_powerOnReset h)

/-! ## Words for the modulator -/

/-- A sample-writing micro-operation of a run: it completes, or the run ends in OUTPUT_OVERFLOW. -/
theorem inv_exec_cases {i : Instr} {s t : State} (h : s.Inv) (hb : s.status.busy = true)
    (hbaud : (baudFactor s.baud).isSome = true) (hi : i.isMicroOp = true) (hf : i ≠ .fin) (ht : exec i s = .next t) :
    t.Inv ∧ (t.st = .idle ∨ ∃ out wp regs, t = { s with out := out, wp := wp, regs := regs }) := by
  obtain ⟨out, wp, regs, hmem, hexec⟩ := exec_emits_cases (parts_of_inv h).memory hbaud hi hf
  have hstored := inv_samples h hb hmem regs
  obtain hexec | ⟨x, hexec⟩ := hexec <;> rw [hexec] at ht <;> cases ht
  · exact ⟨hstored, .inr ⟨_, _, _, rfl⟩⟩
  · exact ⟨inv_raiseError hstored (by decide) x, .inl rfl⟩

theorem afterPortWord_of_ne_fin {i : Instr} (h : i ≠ .fin) (s : State) : afterPortWord i s = s := by
  cases i with
  | fin => exact absurd rfl h
  | _ => rfl

/-- R266: a word of the micro-operation port. -/
theorem keeps_portMove {s : State} (h : s.Inv) {ws : List Word} (hp : s.prog = some ws) : Keeps (portMove ws s) := by
  have hprog : s.prog ≠ none := by simp [hp]
  have hb : s.status.busy = true := h.busyIff.mpr (.inr hprog)
  have hbaud := h.portBaud hprog
  have idle : s.st = .idle := by
    by_contra hst
    exact hprog (h.oneRun hst)
  cases ws with
  | nil => exact keeps_next (inv_endRun h hb)
  | cons w rest =>
    unfold portMove
    dsimp only
    cases hw : decodeMop w with
    | error e => exact keeps_next (inv_raiseError h (by decide) _)
    | ok i =>
      intro t ht
      have hrest : ({ s with prog := some rest } : State).Inv :=
        inv_of_situation h {} (.program rest idle rfl hb hbaud)
      by_cases hf : i = .fin
      · subst hf
        exact inv_fin_endRun hrest hb ht
      · have hafter : afterPortWord i t = t := afterPortWord_of_ne_fin hf t
        rw [hafter]
        exact (inv_exec_cases hrest hb hbaud (decodeMop_isMicroOp hw) hf ht).1

/-- R261: a TPSM run has a legal baud rate. -/
theorem baud_of_configOk {s : State} (h : configOk s = true) : (baudFactor s.baud).isSome = true := by
  simp only [configOk, Bool.and_eq_true] at h
  exact h.1.1

/-- R201: a word the TPSM issues, other than FIN. What follows it sees the same run with more samples and a longer
trace. -/
theorem keeps_issueFromTpsm {i : Instr} {s : State} {after : State → State} (h : s.Inv) (run : TpsmRun s)
    (hf : i ≠ .fin)
    (hafter : ∀ out wp regs trace, ({ s with out := out, wp := wp, regs := regs, trace := trace } : State).Inv →
      (after { s with out := out, wp := wp, regs := regs, trace := trace }).Inv) :
    Keeps (issueFromTpsm i s after) := by
  have htrace : ({ s with trace := s.trace ++ [encode i] } : State).Inv := inv_observations h _ _ _ _
  unfold issueFromTpsm issueWord
  cases hw : decodeMop (encode i) with
  | error e => exact keeps_next (inv_raiseError htrace (by decide) _)
  | ok j =>
    intro t ht
    have hj : j ≠ .fin := fun e => hf (eq_fin_of_decodeMop_encode (e ▸ hw))
    obtain ⟨hinv, hcases⟩ := inv_exec_cases htrace run.busy (baud_of_configOk run.config) (decodeMop_isMicroOp hw) hj ht
    dsimp only
    split
    next => exact hinv
    next hst =>
      obtain ⟨out, wp, regs, rfl⟩ := hcases.resolve_left hst
      exact hafter out wp regs _ hinv

end Sys2Proof.Proofs
end

section
/-! The moves of the TPSM (R205 to R216) keep the invariant, and with the host's accesses and the micro-operation port
every turn does. -/

namespace Sys2Proof.Proofs

open Sys2Proof.Machine Sys2Proof.Laws

/-! ## CAS reads -/

theorem casRead_state (a : Nat) (s : State) : ∃ b n, casRead a s = (b, { s with draws := n }) := by
  unfold casRead
  split
  next => exact ⟨_, _, rfl⟩
  next => exact ⟨_, _, rfl⟩

/-- R62, R75: a window of CAS reads draws free values at most, and gives the bytes that stand there while no CAS write
has tainted the run. -/
theorem casWindow_state (n a : Nat) (s : State) :
    ∃ bs k, casWindow n a s = (bs, { s with draws := k }) ∧ (s.casTainted = false → bs = casBytes s a n) := by
  have hstate : ∃ bs k, casWindow n a s = (bs, { s with draws := k }) := by
    induction n generalizing a s with
    | zero => exact ⟨[], s.draws, rfl⟩
    | succ n ih =>
      obtain ⟨b, j, hread⟩ := casRead_state a s
      obtain ⟨bs, k, hwin⟩ := ih (a + 1) { s with draws := j }
      exact ⟨b :: bs, k, by simp only [casWindow, hread, hwin]⟩
  obtain ⟨bs, k, hwin⟩ := hstate
  exact ⟨bs, k, hwin, fun ht => by simpa [casWindow_untainted ht] using (congrArg Prod.fst hwin).symm⟩

/-! ## The cursor -/

/-- R31, R219: the cursor moves on inside the stream without wrapping round. -/
theorem pos_add_toNat {s : State} {n : Word} (h : s.pos.toNat + n.toNat ≤ s.casLen.toNat) :
    (s.pos + n).toNat = s.pos.toNat + n.toNat :=
  BitVec.toNat_add_of_lt (Nat.lt_of_le_of_lt h s.casLen.isLt)

theorem pos_add_le {s : State} {n : Word} (h : n.toNat ≤ bytesLeft s) (hn : 0 < n.toNat := by decide) :
    (s.pos + n).toNat ≤ s.casLen.toNat := by
  rw [bytesLeft] at h
  rw [pos_add_toNat (by omega)]
  omega

theorem pos_succ_le {s : State} (h : 8 ≤ bytesLeft s) : (s.pos + 1).toNat ≤ s.casLen.toNat :=
  pos_add_le (n := 1) ((show (1 : Word).toNat ≤ 8 by decide).trans h)

/-! ## Scanning (R205 to R209) -/

/-- R209: recording the mode. -/
theorem inv_recordMode {s : State} (h : s.Inv) (m : Mode) : (recordMode m s).Inv := by
  unfold recordMode
  split
  next => exact h
  next => exact { h with modeUnset := nofun, recorded := fun _ => rfl }

theorem recordMode_modeValid (m : Mode) (s : State) : (recordMode m s).status.modeValid = true := by
  rw [recordMode_status]
  split
  next hv => exact hv
  next => rfl

theorem tpsmRun_recordMode {s : State} (run : TpsmRun s) (m : Mode) : TpsmRun (recordMode m s) := by
  unfold recordMode
  split
  next => exact run
  next => exact ⟨run.noProgram, run.busy, run.config, run.cursor⟩

/-- R206 to R209: behind a marker a block is dispatched, or the stream is too short for one. -/
theorem inv_dispatchBlock {s : State} (h : s.Inv) (run : TpsmRun s) (hst : s.st = .scanning) (hleft : 8 ≤ bytesLeft s) :
    (dispatchBlock s).Inv := by
  have hpos : (s.pos + 8).toNat ≤ s.casLen.toNat := pos_add_le (n := 8) hleft
  have run' : TpsmRun { s with pos := s.pos + 8 } := ⟨run.noProgram, run.busy, run.config, hpos⟩
  have hmoved : ({ s with pos := s.pos + 8 } : State).Inv := inv_of_situation h {} (.scanning hst run')
  unfold dispatchBlock
  dsimp only
  split
  next => exact inv_raiseError hmoved (by decide) _
  next =>
    obtain ⟨bs, k, hwin, -⟩ := casWindow_state 10 (s.pos + 8).toNat { s with pos := s.pos + 8 }
    rw [hwin]
    have hread := inv_recordMode (inv_observations hmoved s.schedule k s.readData s.trace) (classify bs)
    obtain ⟨noProgram, busy, config, cursor⟩ := tpsmRun_recordMode
      (s := { s with pos := s.pos + 8, draws := k }) ⟨run.noProgram, run.busy, run.config, hpos⟩ (classify bs)
    exact inv_of_situation hread {}
      (.dispatching rfl ⟨noProgram, busy, config, cursor⟩ (recordMode_modeValid _ _) trivial)

/-- R205: one pass of the loop of `Scan()`. -/
theorem inv_scanMove {s : State} (h : s.Inv) (run : TpsmRun s) (hst : s.st = .scanning) : (scanMove s).Inv := by
  unfold scanMove
  split
  next hshort => exact inv_of_situation h {} (.finishing rfl ⟨run.noProgram, run.busy, run.config, run.cursor⟩ hshort)
  next hleft =>
    obtain ⟨bs, k, hwin, -⟩ := casWindow_state 8 s.pos.toNat s
    have hread : ({ s with draws := k } : State).Inv := inv_observations h _ _ _ _
    rw [hwin]
    dsimp only
    split
    next =>
      exact inv_dispatchBlock hread ⟨run.noProgram, run.busy, run.config, run.cursor⟩ hst (Nat.not_lt.mp hleft)
    next =>
      exact inv_of_situation hread {} <|
        .scanning hst ⟨run.noProgram, run.busy, run.config, pos_succ_le (Nat.not_lt.mp hleft)⟩

/-! ## Dispatching (R210 to R215) -/

/-- A word issued while DISPATCHING, where the policy's next line and cursor fit what follows it. -/
theorem keeps_issue_dispatching {i : Instr} {s : State} {after : State → State} (h : s.Inv) (run : TpsmRun s)
    (hst : s.st = .dispatching) (hf : i ≠ .fin) (p : Word) (g : Stage) (hp : p.toNat ≤ s.casLen.toNat)
    (hg : StageOk { s with pos := p } g)
    (hafter : ∀ t : State, t.pos = s.pos → t.stage = s.stage →
      ∃ eof n, after t = { t with pos := p, stage := g, eof := eof, draws := n }) :
    Keeps (issueFromTpsm i s after) := by
  refine keeps_issueFromTpsm h run hf fun out wp regs trace hinv => ?_
  obtain ⟨eof, n, heq⟩ := hafter { s with out := out, wp := wp, regs := regs, trace := trace } rfl rfl
  rw [heq]
  exact inv_of_situation hinv {} (.dispatching hst ⟨run.noProgram, run.busy, run.config, hp⟩ (h.recorded hst) hg)

/-- A move of the policy that issues nothing. -/
theorem keeps_stage {s : State} (h : s.Inv) (run : TpsmRun s) (hst : s.st = .dispatching) (g : Stage)
    (eof : Bool) (n : Nat) (hg : StageOk s g) :
    Keeps (.settled (.next { s with stage := g, eof := eof, draws := n })) :=
  keeps_next <| inv_of_situation h {} <|
    .dispatching hst ⟨run.noProgram, run.busy, run.config, run.cursor⟩ (h.recorded hst) hg

theorem noteEof_state (b : Byte) (s : State) : ∃ eof, noteEof b s = { s with eof := eof } := by
  unfold noteEof
  split
  next => exact ⟨_, rfl⟩
  next => exact ⟨_, rfl⟩

theorem afterByte_state (s : State) :
    ∃ eof n, afterByte s = { s with pos := s.pos + 1, stage := s.stage, eof := eof, draws := n } := by
  obtain ⟨b, n, hread⟩ := casRead_state s.pos.toNat s
  obtain ⟨eof, heof⟩ := noteEof_state b { s with draws := n }
  exact ⟨eof, n, by unfold afterByte; rw [hread]; dsimp only; rw [heof]⟩

/-- R210: the per-byte phase of `Data()`. -/
theorem keeps_bytesMove {s : State} (h : s.Inv) (run : TpsmRun s) (hst : s.st = .dispatching) (hg : s.stage = .bytes) :
    Keeps (bytesMove s) := by
  unfold bytesMove
  split
  next hleft =>
    obtain ⟨bs, k, hwin, hbytes⟩ := casWindow_state 8 s.pos.toNat s
    rw [hwin]
    dsimp only
    split
    next hsync => exact keeps_stage h run hst .chunkEnd s.eof k (.inr ⟨hleft, fun ht => (hbytes ht).symm.trans hsync⟩)
    next =>
      obtain ⟨b, n, hread⟩ := casRead_state s.pos.toNat { s with draws := k }
      rw [hread]
      dsimp only
      refine keeps_issue_dispatching (inv_observations h _ _ _ _) ⟨run.noProgram, run.busy, run.config, run.cursor⟩
        hst (by simp) (s.pos + 1) .bytes (pos_succ_le hleft) trivial fun t hpos hstage => ?_
      obtain ⟨eof, m, hafter⟩ := afterByte_state t
      exact ⟨eof, m, by rw [hafter, hpos, hstage]; simp [hg]⟩
  next hshort =>
    exact keeps_stage h run hst (.tail s.pos) s.eof s.draws ⟨Nat.le_refl _, Nat.not_le.mp hshort⟩

/-- R210, R211: the tail phase of `Data()`, which ends at the end of the stream. -/
theorem keeps_tailMove {s : State} {t0 : Word} (h : s.Inv) (run : TpsmRun s) (hst : s.st = .dispatching)
    (hg : s.stage = .tail t0) : Keeps (tailMove t0 s) := by
  obtain ⟨hbegin, hshort⟩ := h.tailShort t0 hst hg
  unfold tailMove
  split
  next hlt =>
    obtain ⟨b, n, hread⟩ := casRead_state s.pos.toNat s
    rw [hread]
    have hnext : (s.pos + 1).toNat = s.pos.toNat + 1 := pos_add_toNat (n := 1) hlt
    refine keeps_issue_dispatching (inv_observations h _ _ _ _) ⟨run.noProgram, run.busy, run.config, run.cursor⟩
      hst (by simp) (s.pos + 1) (.tail t0) (hnext.trans_le hlt) ⟨by rw [hnext]; exact Nat.le_succ_of_le hbegin, hshort⟩
      fun t hpos hstage => ?_
    exact ⟨t.eof, t.draws, by rw [hpos, hstage]; simp [hg]⟩
  next hend =>
    have hstop : s.pos = s.casLen := BitVec.eq_of_toNat_eq (Nat.le_antisymm run.cursor (Nat.not_lt.mp hend))
    split
    next =>
      obtain ⟨b, n, hread⟩ := casRead_state t0.toNat s
      obtain ⟨eof, heof⟩ := noteEof_state b { s with draws := n }
      rw [hread]
      dsimp only
      rw [heof]
      exact keeps_stage h run hst .chunkEnd eof n (.inl hstop)
    next => exact keeps_stage h run hst .chunkEnd s.eof s.draws (.inl hstop)

theorem inv_backToScanning {s : State} (h : s.Inv) (run : TpsmRun s) : (backToScanning s).Inv :=
  inv_of_situation h {} (.scanning rfl ⟨run.noProgram, run.busy, run.config, run.cursor⟩)

theorem inv_nextChunk {s : State} (h : s.Inv) (run : TpsmRun s) (hst : s.st = .dispatching) {p : Word}
    (hp : p.toNat ≤ s.casLen.toNat) : (nextChunk p s).Inv :=
  inv_of_situation h {} (.dispatching hst ⟨run.noProgram, run.busy, run.config, hp⟩ (h.recorded hst) trivial)

/-- R214: the skip behind a first chunk is clamped to the stream. -/
theorem inv_afterBinBasicChunk {s : State} (h : s.Inv) (run : TpsmRun s) (hst : s.st = .dispatching) :
    (afterBinBasicChunk s).Inv := by
  unfold afterBinBasicChunk
  split
  next => exact inv_backToScanning h run
  next =>
    refine inv_nextChunk h run hst ?_
    rw [BitVec.toNat_ofNat]
    exact (Nat.mod_le _ _).trans (Nat.min_le_right _ _)

/-- R212 to R215. An ASCII block's next chunk begins behind the marker its last one ended at (R217). -/
theorem inv_afterChunk {s : State} (h : s.Inv) (run : TpsmRun s) (hst : s.st = .dispatching)
    (hg : s.stage = .chunkEnd) : (afterChunk s).Inv := by
  unfold afterChunk
  split
  next => exact inv_backToScanning h run
  next =>
    split
    next hmore =>
      have hleft : 8 ≤ bytesLeft s := by
        rcases h.chunkEnds hst hg with hend | hmarker
        · exact absurd hmore.2 (by rw [hend]; exact Nat.lt_irrefl _)
        · exact hmarker.1
      exact inv_nextChunk h run hst (pos_add_le (n := 8) hleft)
    next => exact inv_backToScanning h run
  next => exact inv_afterBinBasicChunk h run hst
  next => exact inv_afterBinBasicChunk h run hst

theorem keeps_policyMove {s : State} (h : s.Inv) (run : TpsmRun s) (hst : s.st = .dispatching) :
    Keeps (policyMove s) := by
  unfold policyMove
  split
  next =>
    exact keeps_issue_dispatching h run hst (by simp) s.pos .header run.cursor trivial
      fun t hpos _ => ⟨t.eof, t.draws, by rw [← hpos]⟩
  next =>
    exact keeps_issue_dispatching h run hst (by simp) s.pos .bytes run.cursor trivial
      fun t hpos _ => ⟨false, t.draws, by rw [← hpos]⟩
  next hg => exact keeps_bytesMove h run hst hg
  next t0 hg => exact keeps_tailMove h run hst hg
  next hg => exact keeps_next (inv_afterChunk h run hst hg)

/-! ## Every turn -/

/-- R216, R262: FIN is issued, and the run ends. -/
theorem keeps_finish {s : State} (h : s.Inv) (run : TpsmRun s) (hst : s.st = .done) :
    Keeps (issueFromTpsm .fin s endRun) := by
  have htrace : ({ s with trace := s.trace ++ [encode .fin] } : State).Inv := inv_observations h _ _ _ _
  unfold issueFromTpsm issueWord
  rw [decodeMop_encode_fin]
  intro t ht
  have hrunning : t.st ≠ .idle := by cases ht; simp [hst]
  dsimp only
  rw [if_neg hrunning]
  exact inv_fin_endRun htrace run.busy ht

/-- R200: one move of the TPSM, by its state; in IDLE it waits. -/
theorem keeps_tpsmMove {s : State} (h : s.Inv) : Keeps (tpsmMove s) := by
  unfold tpsmMove
  cases situation_of_inv h with
  | rest idle => rw [idle]; exact keeps_next h
  | program ws idle => rw [idle]; exact keeps_next h
  | scanning state run => rw [state]; exact keeps_next (inv_scanMove h run state)
  | dispatching state run => rw [state]; exact keeps_policyMove h run state
  | finishing state run => rw [state]; exact keeps_finish h run state

theorem keeps_blockMove {s : State} (h : s.Inv) : Keeps (blockMove s) := by
  unfold blockMove
  split
  next ws hp => exact keeps_portMove h hp
  next => exact keeps_tpsmMove h

theorem keeps_fetch {s : State} (h : s.Inv) : Keeps (fetch s) := by
  unfold fetch
  split
  next => exact keeps_blockMove h
  next rest _ => exact keeps_blockMove (inv_observations h rest _ _ _)
  next op rest _ => exact keeps_hostAccess (inv_observations h rest _ _ _) op

/-- Settles O52: whatever turn is fetched keeps the invariant. -/
theorem stepKeepsInv : Obligations.StepKeepsInv :=
  fun _ _ h ht => inv_of_step (keeps_fetch h) ht

end Sys2Proof.Proofs
end

section
/-! The two memories as the host and the block reach them: a CAS write and a CAS read (R60 to R62, R75), a read of
OUT memory (R64, R72), and the free result of a tainted run (R75, U7). -/

namespace Sys2Proof.Proofs

open Sys2Proof.Machine Sys2Proof.Laws

/-! ## CAS memory -/

/-- R75: once the host has written CAS memory during the run, a read of the block draws. -/
theorem casRead_tainted {s : State} (h : s.casTainted = true) (a : Nat) : casRead a s = drawByte s := by
  simp [casRead, h]

/-- Settles O46: the two readings of `casRead`. -/
theorem casReadByBlock : Obligations.CasReadByBlock :=
  fun _ a => ⟨fun h => casRead_untainted h a, fun h => casRead_tainted h a⟩

/-- R60, R61: a byte the host stores reads back at its address, and every other address reads as before. -/
theorem casByte_write (s : State) (a : Nat) (b : Byte) (taint : Bool) (x : Nat) :
    casByte { s with cas := s.cas.write a b, casTainted := taint } x = if x = a then b else casByte s x := by
  unfold casByte
  rw [memory_read_write]
  split
  next => rfl
  next => rfl

/-- Settles O45: below `CAS_CAP` by the read after a write, from there on by the fault of `hostAccess`. -/
theorem casWriteStoresByte : Obligations.CasWriteStoresByte := by
  intro s a b rest hs
  constructor
  · intro ha
    exact ⟨_, step_host hs (by simp [hostAccess, ha]), rfl, casByte_write { s with schedule := rest } a.toNat b _⟩
  · intro ha
    exact step_host hs (by simp [hostAccess, ha])

/-! ## OUT memory -/

/-- R64, R72, R345: where a host read of OUT memory gives the stored byte. -/
theorem outDefined_iff (s : State) (a : Nat) :
    outDefined s a = true ↔ s.status.done = true ∧ s.status.err = false ∧ s.casTainted = false ∧
      ((44 ≤ a ∧ a < s.wp.toNat) ∨ (a < 44 ∧ s.outLen ≠ 0)) := by
  simp [outDefined, and_assoc]

theorem outRead_stored {s : State} {a : Nat} {b : Byte} (hdef : outDefined s a = true) (hb : s.out.read a = some b) :
    outRead a s = (b, s) := by
  simp [outRead, hdef, hb]

theorem outRead_free {s : State} {a : Nat} (h : ¬ outDefined s a = true) : outRead a s = drawByte s := by
  simp [outRead, h]

theorem step_readOut {s : State} {a : Word} {rest : List Turn} (hs : s.schedule = .host (.readOut a) :: rest)
    (ha : a.toNat < s.cfg.outCap.toNat) :
    step s = .next { (outRead a.toNat { s with schedule := rest }).2 with
      readData := (outRead a.toNat { s with schedule := rest }).1.setWidth 32 } :=
  step_host hs (by simp [hostAccess, ha])

theorem step_readOut_free {s : State} {a : Word} {rest : List Turn} (hs : s.schedule = .host (.readOut a) :: rest)
    (ha : a.toNat < s.cfg.outCap.toNat) (h : ¬ outDefined s a.toNat = true) :
    step s = .next { s with
      schedule := rest
      draws := s.draws + 1
      readData := (Config.freeByte s.draws).setWidth 32 } := by
  rw [step_readOut hs ha, outRead_free (s := { s with schedule := rest }) h]
  rfl

/-- Settles O47: the bounds of each clause are those of `outDefined`. -/
theorem outReadByHost : Obligations.OutReadByHost := by
  intro s a rest hs
  refine ⟨fun ha => ?fault, fun b ha hdone herr htaint hwritten hb => ?stored, fun ha hfree => ?free⟩
  case fault => exact step_host hs (by simp [hostAccess, ha])
  case stored =>
    have hplace : (44 ≤ a.toNat ∧ a.toNat < s.wp.toNat) ∨ (a.toNat < 44 ∧ s.outLen ≠ 0) := by
      rcases hwritten with ⟨hlen, heq⟩ | hsample
      · have hne : s.outLen ≠ 0 := fun h0 => by simp [h0] at hlen
        exact (Nat.lt_or_ge a.toNat 44).elim (fun h => .inr ⟨h, hne⟩) fun h => .inl ⟨h, heq ▸ hlen⟩
      · exact .inl hsample
    have hdef := (outDefined_iff s a.toNat).mpr ⟨hdone, herr, htaint, hplace⟩
    rw [step_readOut hs ha, outRead_stored (s := { s with schedule := rest }) hdef hb]
  case free =>
    refine step_readOut_free hs ha fun hdef => ?_
    obtain ⟨hdone, herr, htaint, hplace⟩ := (outDefined_iff s a.toNat).mp hdef
    rcases hfree with h | h | h | ⟨h44, hwp⟩ | ⟨h44, hlen⟩
    · simp [h] at hdone
    · simp [h] at herr
    · simp [h] at htaint
    · omega
    · rcases hplace with ⟨hge, -⟩ | ⟨-, hne⟩
      · omega
      · exact hne hlen

/-! ## The result of a tainted run -/

/-- R28: MODE stands at bits 9:8 of STATUS, so no other bit sees it. -/
theorem status_word_mode_bit (x : Status) (m : Mode) {i : Nat} (h8 : i ≠ 8) (h9 : i ≠ 9) :
    ({ x with mode := m } : Status).word.getLsbD i = x.word.getLsbD i := by
  simp only [Status.word, BitVec.getLsbD_append]
  repeat' split
  any_goals rfl
  omega

/-- U7: a tainted run puts no field of STATUS in doubt but MODE. -/
theorem taintedMode_fields (r : Status × State) : ∃ m, (taintedMode r).1 = { r.1 with mode := m } := by
  unfold taintedMode
  split
  next => exact ⟨_, rfl⟩
  next => exact ⟨r.1.mode, rfl⟩

theorem statusFields_not_busy {s : State} (hb : s.status.busy = false) :
    statusFields s = taintedMode (s.status, s) := by
  simp [statusFields, hb]

/-- U7: `OUT_LEN` after a tainted run is a free word. -/
theorem outLenRead_tainted {s : State} (ht : s.casTainted = true) (hd : s.status.done = true) :
    outLenRead s = drawWord s := by
  simp [outLenRead, ht, hd]

/-- Settles O48: `OUT_LEN` draws, no OUT address is defined, and STATUS differs in its mode alone. -/
theorem taintedResultIsFree : Obligations.TaintedResultIsFree := by
  intro s rest ht hd hb
  refine ⟨fun hs => ?outLen, fun a hs ha => ?outByte, fun hs => ?status⟩
  case outLen =>
    have hread : readRegister 0x14 { s with schedule := rest } = drawWord { s with schedule := rest } :=
      outLenRead_tainted ht hd
    rw [step_readReg hs (by omega), hread]
    rfl
  case outByte =>
    refine step_readOut_free hs ha fun hdef => ?_
    obtain ⟨-, -, htaint, -⟩ := (outDefined_iff s a.toNat).mp hdef
    simp [ht] at htaint
  case status =>
    obtain ⟨n, hn⟩ := readRegister_state 0x04 { s with schedule := rest }
    obtain ⟨m, hm⟩ := taintedMode_fields (s.status, { s with schedule := rest })
    refine ⟨_, step_readReg hs (by omega), by rw [hn], fun i h8 h9 => ?_⟩
    have hfields := statusFields_not_busy (s := { s with schedule := rest }) hb
    have hword : (readRegister 0x04 { s with schedule := rest }).1 = ({ s.status with mode := m } : Status).word :=
      congrArg Status.word ((congrArg Prod.fst hfields).trans hm)
    exact (congrArg (·.getLsbD i) hword).trans (status_word_mode_bit s.status m h8 h9)

end Sys2Proof.Proofs
end

section
/-! What a turn of the block leaves as it is: its inputs (R42, R61), and that what it does is the same whatever the
schedule holds after it (log 3). One predicate says both, with one rule per construct the moves are built from. -/

namespace Sys2Proof.Proofs

open Sys2Proof.Machine Sys2Proof.Laws

/-! ## A turn that completes and keeps the block's inputs -/

/-- What the block reads and never writes: CAS memory, the parameters, the configuration registers, the taint mark. -/
def blockInputs (s : State) : Memory × Config × Word × Word × Word × Bool :=
  (s.cas, s.cfg, s.baud, s.leadinS, s.casLen, s.casTainted)

/-- What a fetched turn comes to. -/
def outcome : Fetched → Host.Outcome State Fault Refusal
  | .run i s after => thenDo (exec i s) after
  | .settled o => o

theorem step_eq_outcome (s : State) : step s = outcome (fetch s) := by
  cases h : fetch s with
  | run i t after => exact step_of_run h
  | settled o => exact step_of_settled h

/-- A turn from `s`, as a function of what the schedule holds after it: it completes in one and the same state but for
that rest of the schedule, and the inputs are those of `s`. -/
def Completes (s : State) (turn : List Turn → Host.Outcome State Fault Refusal) : Prop :=
  ∃ t, blockInputs t = blockInputs s ∧ ∀ rest, turn rest = .next { t with schedule := rest }

theorem completes_next {s : State} (t : State) (h : blockInputs t = blockInputs s) :
    Completes s fun rest => .next { t with schedule := rest } :=
  ⟨t, h, fun _ => rfl⟩

theorem completes_of_eq {s : State} {f g : List Turn → Host.Outcome State Fault Refusal} (h : ∀ rest, f rest = g rest)
    (hg : Completes s g) : Completes s f :=
  funext h ▸ hg

/-- A case distinction that does not look at the schedule. -/
theorem completes_ite {s : State} (c : Prop) [Decidable c] {f g : List Turn → Host.Outcome State Fault Refusal}
    (hf : c → Completes s f) (hg : ¬ c → Completes s g) : Completes s fun rest => if c then f rest else g rest := by
  by_cases h : c
  · simpa only [if_pos h] using hf h
  · simpa only [if_neg h] using hg h

/-- What follows an instruction or a read, from whatever state: it completes in the sense above. -/
def Continues (after : State → State) : Prop :=
  ∀ s, Completes s fun rest => .next (after { s with schedule := rest })

/-- An update of the state that leaves the inputs alone and does not look at the schedule. -/
theorem continues_update (f : State → State) (hin : ∀ s, blockInputs (f s) = blockInputs s)
    (hschedule : ∀ s rest, f { s with schedule := rest } = { f s with schedule := rest }) : Continues f :=
  fun s => ⟨f s, hin s, fun rest => congrArg _ (hschedule s rest)⟩

/-- One turn after another. -/
theorem completes_thenDo {s : State} {turn : List Turn → Host.Outcome State Fault Refusal} {after : State → State}
    (h : Completes s turn) (hafter : Continues after) : Completes s fun rest => thenDo (turn rest) after := by
  obtain ⟨t, ht, hturn⟩ := h
  obtain ⟨u, hu, hnext⟩ := hafter t
  exact ⟨u, hu.trans ht, fun rest => (congrArg (thenDo · after) (hturn rest)).trans (hnext rest)⟩

/-! ## Errors, the end of a run, and micro-operations -/

theorem emitAll_schedule_eq (es : List Emission) (r : Transient) (s : State) (rest : List Turn) :
    emitAll es r { s with schedule := rest } = { emitAll es r s with schedule := rest } := by
  unfold emitAll
  dsimp only
  split <;> rfl

theorem continues_raiseError (e : ErrCode) (x : Option ErrorInfo) : Continues (raiseError e x) :=
  continues_update (raiseError e x) (fun _ => rfl) fun _ _ => rfl

theorem continues_endRun : Continues endRun :=
  continues_update endRun (fun _ => rfl) fun _ _ => rfl

theorem continues_emitAll (es : List Emission) (r : Transient) : Continues (emitAll es r) :=
  continues_update (emitAll es r) (by simp [blockInputs]) (emitAll_schedule_eq es r)

theorem completes_withBaudFactor (es : Nat → List Emission) (r : Nat → Transient) (s : State) :
    Completes s fun rest => .next (withBaudFactor { s with schedule := rest } fun k =>
      emitAll (es k) (r k) { s with schedule := rest }) := by
  unfold withBaudFactor
  dsimp only
  cases baudFactor s.baud with
  | none => exact continues_raiseError .badConfig none s
  | some k => exact continues_emitAll (es k) (r k) s

/-- R42, R61: a micro-operation neither faults nor is refused, and reads the schedule nowhere. -/
theorem completes_exec {i : Instr} (hi : i.isMicroOp = true) (s : State) :
    Completes s fun rest => exec i { s with schedule := rest } := by
  cases i with
  | sil n => exact continues_emitAll (silEmissions n s.regs) { s.regs with rem := 0 } s
  | pulse t => exact completes_withBaudFactor (fun k => pulseEmissions k t s.regs) (fun k => pulseEnd k t s.regs) s
  | hdr p =>
    simp only [exec, execHdr, apply_ite Host.Outcome.next]
    exact completes_ite (p = 0) (fun _ => continues_emitAll [] { s.regs with rem := 0 } s) fun _ =>
      completes_withBaudFactor (fun k => hdrEmissions k p s.regs) (fun k => hdrEnd k p s.regs) s
  | byte d => exact completes_withBaudFactor (fun k => byteEmissions k d s.regs) (fun k => byteEnd k d s.regs) s
  | fin => exact completes_next { s with out := writeHeader (headerFields (s.wp - 44)) s.out, outLen := s.wp } rfl
  | start => cases hi
  | srst => cases hi

/-! ## The micro-operation port -/

theorem continues_afterPortWord (i : Instr) : Continues (afterPortWord i) := by
  by_cases hf : i = .fin
  · subst hf
    exact continues_endRun
  · exact continues_update _ (fun s => by rw [afterPortWord_of_ne_fin hf]) fun _ _ => by
      simp only [afterPortWord_of_ne_fin hf]

/-- R266: one pass of the loop of `ExecProgram`. -/
theorem completes_portMove (ws : List Word) (s : State) :
    Completes s fun rest => outcome (portMove ws { s with schedule := rest }) := by
  cases ws with
  | nil => exact continues_endRun s
  | cons w ws =>
    unfold portMove
    dsimp only
    cases hw : decodeMop w with
    | ok i =>
      exact completes_thenDo (completes_exec (decodeMop_isMicroOp hw) { s with prog := some ws })
        (continues_afterPortWord i)
    | error e => exact continues_raiseError .illegalMop (some (.word w)) s

/-! ## CAS reads -/

theorem casRead_schedule_eq (a : Nat) (s : State) :
    ∃ b n, ∀ rest, casRead a { s with schedule := rest } = (b, { s with schedule := rest, draws := n }) := by
  by_cases htaint : s.casTainted = true
  · exact ⟨Config.freeByte s.draws, s.draws + 1, fun _ => if_pos htaint⟩
  · exact ⟨casByte s a, s.draws, fun _ => if_neg htaint⟩

/-- R62: a window reads the same bytes whatever the schedule holds. -/
theorem casWindow_schedule_eq (n a : Nat) (s : State) :
    ∃ bs k, ∀ rest, casWindow n a { s with schedule := rest } = (bs, { s with schedule := rest, draws := k }) := by
  induction n generalizing a s with
  | zero => exact ⟨[], s.draws, fun _ => rfl⟩
  | succ n ih =>
    obtain ⟨b, j, hread⟩ := casRead_schedule_eq a s
    obtain ⟨bs, k, hwin⟩ := ih (a + 1) { s with draws := j }
    exact ⟨b :: bs, k, fun rest => by simp only [casWindow, hread, hwin]⟩

/-! ## The moves of the TPSM -/

/-- R201: a word the TPSM issues, and what it does next. -/
theorem completes_issueFromTpsm (i : Instr) (s : State) {after : State → State} (hafter : Continues after) :
    Completes s fun rest => outcome (issueFromTpsm i { s with schedule := rest } after) := by
  unfold issueFromTpsm issueWord
  cases hw : decodeMop (encode i) with
  | ok j =>
    refine completes_thenDo (completes_exec (decodeMop_isMicroOp hw) { s with trace := s.trace ++ [encode i] })
      fun t => ?_
    simp only [apply_ite Host.Outcome.next]
    exact completes_ite (t.st = .idle) (fun _ => completes_next t rfl) fun _ => hafter t
  | error e =>
    exact continues_raiseError .illegalMop (some (.word (encode i))) { s with trace := s.trace ++ [encode i] }

/-- R209: recording the mode. -/
theorem continues_recordMode (m : Mode) : Continues (recordMode m) := by
  intro s
  simp only [recordMode, apply_ite Host.Outcome.next]
  exact completes_ite (s.status.modeValid = true) (fun _ => completes_next s rfl) fun _ =>
    completes_next { s with status := { s.status with mode := m, modeValid := true } } rfl

/-- R206 to R209: a block behind a marker. -/
theorem continues_dispatchBlock : Continues dispatchBlock := by
  intro s
  obtain ⟨bs, k, hwin⟩ := casWindow_schedule_eq 10 (s.pos + 8).toNat { s with pos := s.pos + 8 }
  simp only [dispatchBlock, hwin, apply_ite Host.Outcome.next]
  refine completes_ite (bytesLeft { s with pos := s.pos + 8 } < 10) (fun _ => ?short) fun _ => ?block
  case short =>
    exact continues_raiseError .truncatedBlock (some (.marker (s.pos + 8 - 8))) { s with pos := s.pos + 8 }
  case block =>
    exact completes_thenDo (continues_recordMode (classify bs) { s with pos := s.pos + 8, draws := k }) <|
      continues_update (fun t => { t with st := .dispatching, cur := classify bs, stage := .silence, further := false })
        (fun _ => rfl) fun _ _ => rfl

/-- R205: one pass of the loop of `Scan()`. -/
theorem continues_scanMove : Continues scanMove := by
  intro s
  obtain ⟨bs, k, hwin⟩ := casWindow_schedule_eq 8 s.pos.toNat s
  simp only [scanMove, hwin, apply_ite Host.Outcome.next]
  exact completes_ite (bytesLeft s < 8) (fun _ => completes_next { s with st := .done } rfl) fun _ =>
    completes_ite (bs = syncMarker) (fun _ => continues_dispatchBlock { s with draws := k }) fun _ =>
      completes_next { s with pos := s.pos + 1, draws := k } rfl

/-- R211: the EOF test. -/
theorem continues_noteEof (b : Byte) : Continues (noteEof b) := by
  intro s
  simp only [noteEof, apply_ite Host.Outcome.next]
  exact completes_ite (b = eofByte) (fun _ => completes_next { s with eof := true } rfl) fun _ => completes_next s rfl

theorem continues_afterByte : Continues afterByte := by
  intro s
  obtain ⟨b, n, hread⟩ := casRead_schedule_eq s.pos.toNat s
  simp only [afterByte, hread]
  exact completes_thenDo (continues_noteEof b { s with draws := n }) <|
    continues_update (fun t => { t with pos := s.pos + 1 }) (fun _ => rfl) fun _ _ => rfl

/-- R210: the per-byte phase of `Data()`. -/
theorem completes_bytesMove (s : State) :
    Completes s fun rest => outcome (bytesMove { s with schedule := rest }) := by
  obtain ⟨bs, k, hwin⟩ := casWindow_schedule_eq 8 s.pos.toNat s
  obtain ⟨b, n, hread⟩ := casRead_schedule_eq s.pos.toNat { s with draws := k }
  simp only [bytesMove, hwin, hread, apply_ite outcome]
  refine completes_ite (8 ≤ bytesLeft s)
    (fun _ => completes_ite (bs = syncMarker) (fun _ => ?marker) fun _ => ?byte) fun _ => ?tail
  case marker => exact completes_next { s with stage := .chunkEnd, draws := k } rfl
  case byte => exact completes_issueFromTpsm (.byte b) { s with draws := n } continues_afterByte
  case tail => exact completes_next { s with stage := .tail s.pos } rfl

/-- R210, R211: the tail phase of `Data()`. -/
theorem completes_tailMove (t0 : Word) (s : State) :
    Completes s fun rest => outcome (tailMove t0 { s with schedule := rest }) := by
  obtain ⟨b, n, hread⟩ := casRead_schedule_eq s.pos.toNat s
  obtain ⟨b0, n0, hread0⟩ := casRead_schedule_eq t0.toNat s
  simp only [tailMove, hread, hread0, apply_ite outcome]
  refine completes_ite (s.pos.toNat < s.casLen.toNat) (fun _ => ?byte) fun _ =>
    completes_ite (0 < s.casLen.toNat - t0.toNat) (fun _ => ?eofTest) fun _ => ?chunkEnd
  case byte =>
    exact completes_issueFromTpsm (.byte b) { s with draws := n } <|
      continues_update (fun t => { t with pos := t.pos + 1 }) (fun _ => rfl) fun _ _ => rfl
  case eofTest =>
    exact completes_thenDo (continues_noteEof b0 { s with draws := n0 }) <|
      continues_update (fun t => { t with stage := .chunkEnd }) (fun _ => rfl) fun _ _ => rfl
  case chunkEnd => exact completes_next { s with stage := .chunkEnd } rfl

theorem continues_backToScanning : Continues backToScanning :=
  continues_update backToScanning (fun _ => rfl) fun _ _ => rfl

theorem continues_nextChunk (p : Word) : Continues (nextChunk p) :=
  continues_update (nextChunk p) (fun _ => rfl) fun _ _ => rfl

/-- R214. -/
theorem continues_afterBinBasicChunk : Continues afterBinBasicChunk := by
  intro s
  simp only [afterBinBasicChunk, apply_ite Host.Outcome.next]
  exact completes_ite (s.further = true) (fun _ => continues_backToScanning s) fun _ => continues_nextChunk _ s

/-- R212 to R215: what each policy does when `Data()` has returned. -/
theorem continues_afterChunk : Continues afterChunk := by
  intro s
  cases h : s.cur with
  | unknown => exact completes_of_eq (fun _ => by simp only [afterChunk, h]) (continues_backToScanning s)
  | ascii =>
    exact completes_of_eq (fun _ => by simp only [afterChunk, h, apply_ite Host.Outcome.next]) <|
      completes_ite (s.eof = false ∧ s.pos.toNat < s.casLen.toNat) (fun _ => continues_nextChunk (s.pos + 8) s)
        fun _ => continues_backToScanning s
  | binary => exact completes_of_eq (fun _ => by simp only [afterChunk, h]) (continues_afterBinBasicChunk s)
  | basic => exact completes_of_eq (fun _ => by simp only [afterChunk, h]) (continues_afterBinBasicChunk s)

/-- R210 to R215: one move of a policy. -/
theorem completes_policyMove (s : State) :
    Completes s fun rest => outcome (policyMove { s with schedule := rest }) := by
  cases h : s.stage with
  | silence =>
    exact completes_of_eq (fun _ => by simp only [policyMove, h, chunkSilence]) <|
      completes_issueFromTpsm (.sil (chunkSilence s)) s <|
        continues_update (fun t => { t with stage := .header }) (fun _ => rfl) fun _ _ => rfl
  | header =>
    exact completes_of_eq (fun _ => by simp only [policyMove, h, chunkHeader]) <|
      completes_issueFromTpsm (.hdr (chunkHeader s)) s <|
        continues_update (fun t => { t with stage := .bytes, eof := false }) (fun _ => rfl) fun _ _ => rfl
  | bytes => exact completes_of_eq (fun _ => by simp only [policyMove, h]) (completes_bytesMove s)
  | tail t0 => exact completes_of_eq (fun _ => by simp only [policyMove, h]) (completes_tailMove t0 s)
  | chunkEnd => exact completes_of_eq (fun _ => by simp only [policyMove, h, outcome]) (continues_afterChunk s)

/-- R200: one move of the TPSM. -/
theorem completes_tpsmMove (s : State) : Completes s fun rest => outcome (tpsmMove { s with schedule := rest }) := by
  cases h : s.st with
  | idle => exact completes_of_eq (fun _ => by simp only [tpsmMove, h, outcome]) (completes_next s rfl)
  | scanning => exact completes_of_eq (fun _ => by simp only [tpsmMove, h, outcome]) (continues_scanMove s)
  | dispatching => exact completes_of_eq (fun _ => by simp only [tpsmMove, h]) (completes_policyMove s)
  | done =>
    exact completes_of_eq (fun _ => by simp only [tpsmMove, h]) (completes_issueFromTpsm .fin s continues_endRun)

/-! ## Every turn of the block -/

theorem completes_blockMove (s : State) :
    Completes s fun rest => outcome (blockMove { s with schedule := rest }) := by
  cases h : s.prog with
  | some ws => exact completes_of_eq (fun _ => by simp only [blockMove, h]) (completes_portMove ws s)
  | none => exact completes_of_eq (fun _ => by simp only [blockMove, h]) (completes_tpsmMove s)

/-- Log 3: a turn of the block takes its own entry off the schedule and is the same move with or without one. -/
theorem step_blockTurn {s : State} (h : s.blockTurn) :
    step s = outcome (blockMove { s with schedule := s.schedule.tail }) := by
  rw [step_eq_outcome]
  rcases h with h | ⟨rest, h⟩
  · rw [fetch_block h, h, List.tail_nil, ← h]
  · rw [fetch, h, List.tail_cons]

/-- Settles O53: a turn of the block completes in one state, whatever the schedule holds after it. -/
theorem blockTurnKeepsInputs : Obligations.BlockTurnKeepsInputs := by
  constructor
  · intro s hblock
    obtain ⟨t, hin, hstep⟩ := completes_blockMove s
    simp only [blockInputs, Prod.mk.injEq] at hin
    obtain ⟨hcas, hcfg, hbaud, hleadinS, hcasLen, htaint⟩ := hin
    exact ⟨_, (step_blockTurn hblock).trans (hstep _), hcas, hcfg, hbaud, hleadinS, hcasLen, htaint, rfl⟩
  · intro s rest
    obtain ⟨t, -, hstep⟩ := completes_blockMove s
    have hscheduled : step { s with schedule := .block :: rest } = .next { t with schedule := rest } :=
      (step_blockTurn (.inr ⟨rest, rfl⟩)).trans (hstep rest)
    have halone : step { s with schedule := [] } = .next { t with schedule := [] } :=
      (step_blockTurn (.inl rfl)).trans (hstep [])
    rw [hscheduled, halone]
    rfl

end Sys2Proof.Proofs
end

section
/-! The decoders of the two formats against the encoder (R91 to R101): what `decodeMop` answers for each opcode and
`decodeCtrl` for each pair of low bits, the words they read back and reject, and the words the assembler spells
(R102, R103). -/

namespace Sys2Proof.Proofs

open Sys2Proof.Machine Sys2Proof.Laws

/-! ## Fields and words as numbers -/

theorem opField_eq_iff (w : Word) (op : BitVec 4) : opField w = op ↔ w.toNat / 2 ^ 28 = op.toNat := by
  rw [← BitVec.toNat_inj, opField_toNat]

theorem argField_eq_zero_iff (w : Word) : argField w = 0 ↔ w.toNat % 2 ^ 28 = 0 := by
  rw [← BitVec.toNat_inj, argField_toNat]
  rfl

/-- The bits of `ARG` from bit `k` up are 0 when the number above `k` is. -/
theorem argField_high_eq_zero_iff (w : Word) {k len : Nat} (hlen : k + len = 28) :
    (argField w).extractLsb' k len = 0 ↔ w.toNat % 2 ^ 28 / 2 ^ k = 0 := by
  have hfits : w.toNat % 2 ^ 28 / 2 ^ k < 2 ^ len := by
    rw [Nat.div_lt_iff_lt_mul (Nat.two_pow_pos k), ← Nat.pow_add, Nat.add_comm len, hlen]
    exact Nat.mod_lt _ (Nat.two_pow_pos 28)
  rw [← BitVec.toNat_inj, BitVec.extractLsb'_toNat, argField_toNat, Nat.shiftRight_eq_div_pow, Nat.mod_eq_of_lt hfits]
  rfl

theorem argField_low_byte (w : Word) : (argField w).extractLsb' 0 8 = BitVec.ofNat 8 w.toNat := by
  apply BitVec.eq_of_toNat_eq
  rw [BitVec.extractLsb'_toNat, argField_toNat, Nat.shiftRight_zero, BitVec.toNat_ofNat]
  exact Nat.mod_mod_of_dvd _ (by decide)

theorem argField_low_bit (w : Word) : (argField w).getLsbD 0 = w.getLsbD 0 := by
  simp [argField]

theorem encode_sil_toNat {n : Nat} (h : n < 2 ^ 28) : (encode (.sil n)).toNat = 0x10000000 + n :=
  (encode_toNat (.sil n)).trans (congrArg (0x10000000 + ·) (Nat.mod_eq_of_lt h))

theorem encode_pulse_toNat (b : Bool) : (encode (.pulse (toneOfBit b))).toNat = 0x20000000 + b.toNat := by
  cases b <;> rfl

theorem encode_hdr_toNat {p : Nat} (h : p < 2 ^ 28) : (encode (.hdr p)).toNat = 0x30000000 + p :=
  (encode_toNat (.hdr p)).trans (congrArg (0x30000000 + ·) (Nat.mod_eq_of_lt h))

theorem encode_byte_toNat (d : Byte) : (encode (.byte d)).toNat = 0x40000000 + d.toNat :=
  encode_toNat (.byte d)

theorem encode_fin_toNat : (encode .fin).toNat = 0x50000000 := rfl

/-! ## What the micro-operation decoder answers, opcode by opcode -/

theorem decodeMop_sil {w : Word} (hop : w.toNat / 2 ^ 28 = 1) : decodeMop w = .ok (.sil (w.toNat % 2 ^ 28)) := by
  have hfield : opField w = 0x1 := (opField_eq_iff w _).mpr hop
  simp only [decodeMop, hfield, reduceIte, argField_toNat]

theorem decodeMop_pulse {w : Word} (hop : w.toNat / 2 ^ 28 = 2) : decodeMop w =
    if w.toNat % 2 ^ 28 / 2 ^ 1 = 0 then .ok (.pulse (toneOfBit (w.getLsbD 0))) else .error .pulseReservedBits := by
  have hfield : opField w = 0x2 := (opField_eq_iff w _).mpr hop
  simp only [decodeMop, hfield, BitVec.reduceEq, reduceIte, argField_high_eq_zero_iff w (show 1 + 27 = 28 from rfl),
    argField_low_bit]

theorem decodeMop_hdr {w : Word} (hop : w.toNat / 2 ^ 28 = 3) : decodeMop w = .ok (.hdr (w.toNat % 2 ^ 28)) := by
  have hfield : opField w = 0x3 := (opField_eq_iff w _).mpr hop
  simp only [decodeMop, hfield, BitVec.reduceEq, reduceIte, argField_toNat]

theorem decodeMop_byte {w : Word} (hop : w.toNat / 2 ^ 28 = 4) : decodeMop w =
    if w.toNat % 2 ^ 28 / 2 ^ 8 = 0 then .ok (.byte (BitVec.ofNat 8 w.toNat)) else .error .byteReservedBits := by
  have hfield : opField w = 0x4 := (opField_eq_iff w _).mpr hop
  simp only [decodeMop, hfield, BitVec.reduceEq, reduceIte, argField_high_eq_zero_iff w (show 8 + 20 = 28 from rfl),
    argField_low_byte]

theorem decodeMop_fin {w : Word} (hop : w.toNat / 2 ^ 28 = 5) : decodeMop w =
    if w.toNat % 2 ^ 28 = 0 then .ok .fin else .error .finReservedBits := by
  have hfield : opField w = 0x5 := (opField_eq_iff w _).mpr hop
  simp only [decodeMop, hfield, BitVec.reduceEq, reduceIte, argField_eq_zero_iff]

theorem decodeMop_reserved {w : Word} (hop : w.toNat / 2 ^ 28 = 0 ∨ 6 ≤ w.toNat / 2 ^ 28) :
    decodeMop w = .error (.reservedOpcode (opField w)) := by
  have hne (op : BitVec 4) (h1 : 1 ≤ op.toNat) (h5 : op.toNat ≤ 5) : opField w ≠ op := fun h => by
    have := (opField_eq_iff w op).mp h
    omega
  simp [decodeMop, hne]

/-- The rows of R93 to R98: five opcodes with a meaning, the others reserved. -/
theorem opcode_cases (w : Word) :
    w.toNat / 2 ^ 28 = 1 ∨ w.toNat / 2 ^ 28 = 2 ∨ w.toNat / 2 ^ 28 = 3 ∨ w.toNat / 2 ^ 28 = 4 ∨ w.toNat / 2 ^ 28 = 5 ∨
      (w.toNat / 2 ^ 28 = 0 ∨ 6 ≤ w.toNat / 2 ^ 28) := by
  omega

/-! ## What the CTRL decoder answers -/

theorem getLsbD_zero_toNat (c : Word) : (c.getLsbD 0).toNat = c.toNat % 2 := by
  rw [BitVec.getLsbD, Nat.toNat_testBit, Nat.pow_zero, Nat.div_one]

theorem getLsbD_zero_iff (c : Word) : c.getLsbD 0 = true ↔ c.toNat % 2 = 1 := by
  rw [← getLsbD_zero_toNat, Bool.toNat_eq_one]

theorem getLsbD_one_iff (c : Word) : c.getLsbD 1 = true ↔ 2 ≤ c.toNat % 4 := by
  rw [← Bool.toNat_eq_one, BitVec.getLsbD, Nat.toNat_testBit]
  omega

theorem decodeCtrl_srst {c : Word} (h : 2 ≤ c.toNat % 4) : decodeCtrl c = .ok .srst :=
  if_pos ((getLsbD_one_iff c).mpr h)

theorem decodeCtrl_start {c : Word} (h : c.toNat % 4 = 1) : decodeCtrl c = .ok .start :=
  (if_neg (by rw [getLsbD_one_iff]; omega)).trans (if_pos (by rw [getLsbD_zero_iff]; omega))

theorem decodeCtrl_noCommand {c : Word} (h : c.toNat % 4 = 0) : decodeCtrl c = .error .noCommand :=
  (if_neg (by rw [getLsbD_one_iff]; omega)).trans (if_neg (by rw [getLsbD_zero_iff]; omega))

/-! ## Decode and encode -/

/-- R93 to R97: the word of a well-formed micro-operation is read back as that micro-operation. -/
theorem decodeMop_encode {i : Instr} (hwf : WellFormed i = true) (hm : i.isMicroOp = true) :
    decodeMop (encode i) = .ok i := by
  cases i with
  | sil n =>
    have hn : n < 2 ^ 28 := of_decide_eq_true hwf
    have hword := encode_sil_toNat hn
    rw [decodeMop_sil (by omega), show (encode (.sil n)).toNat % 2 ^ 28 = n by omega]
  | pulse t => cases t <;> rfl
  | hdr p =>
    have hp : p < 2 ^ 28 := of_decide_eq_true hwf
    have hword := encode_hdr_toNat hp
    rw [decodeMop_hdr (by omega), show (encode (.hdr p)).toNat % 2 ^ 28 = p by omega]
  | byte d =>
    have hword := encode_byte_toNat d
    have hpayload : BitVec.ofNat 8 (encode (.byte d)).toNat = d := by
      apply BitVec.eq_of_toNat_eq
      rw [BitVec.toNat_ofNat]
      omega
    rw [decodeMop_byte (by omega), if_pos (by omega), hpayload]
  | fin => exact decodeMop_encode_fin
  | start => cases hm
  | srst => cases hm

/-- R101: the CTRL value of a host command is read back as that command. -/
theorem decodeCtrl_encode {i : Instr} (hm : i.isMicroOp = false) : decodeCtrl (encode i) = .ok i := by
  cases i with
  | start => exact decodeCtrl_start rfl
  | srst => exact decodeCtrl_srst (Nat.le_refl 2)
  | sil _ | pulse _ | hdr _ | byte _ | fin => cases hm

/-- A word the decoder accepts is the word of the well-formed instruction it decodes to. -/
theorem encode_toNat_of_decodeMop {w : Word} {i : Instr} (h : decodeMop w = .ok i) :
    WellFormed i = true ∧ (encode i).toNat = w.toNat := by
  have harg : w.toNat % 2 ^ 28 < 2 ^ 28 := Nat.mod_lt _ (Nat.two_pow_pos 28)
  rcases opcode_cases w with hop | hop | hop | hop | hop | hop
  · rw [decodeMop_sil hop] at h
    cases h
    exact ⟨decide_eq_true harg, by rw [encode_sil_toNat harg]; omega⟩
  · rw [decodeMop_pulse hop] at h
    split at h <;> cases h
    exact ⟨rfl, by rw [encode_pulse_toNat, getLsbD_zero_toNat]; omega⟩
  · rw [decodeMop_hdr hop] at h
    cases h
    exact ⟨decide_eq_true harg, by rw [encode_hdr_toNat harg]; omega⟩
  · rw [decodeMop_byte hop] at h
    split at h <;> cases h
    exact ⟨rfl, by rw [encode_byte_toNat, BitVec.toNat_ofNat]; omega⟩
  · rw [decodeMop_fin hop] at h
    split at h <;> cases h
    exact ⟨rfl, by rw [encode_fin_toNat]; omega⟩
  · rw [decodeMop_reserved hop] at h
    cases h

/-- Settles O2, by the two round trips of `decodeMop` and the one of `decodeCtrl`. -/
theorem decodeEncodeAgree : Obligations.DecodeEncodeAgree := by
  refine ⟨fun i hwf => ⟨decodeMop_encode hwf, decodeCtrl_encode⟩, fun w i h => ?_⟩
  obtain ⟨hwf, hword⟩ := encode_toNat_of_decodeMop h
  exact ⟨hwf, decodeMop_isMicroOp h, BitVec.eq_of_toNat_eq hword⟩

/-! ## Rejected words, and words written out -/

theorem not_exists_error_of_ok (i : Instr) : ¬ ∃ e : Reject, (.ok i : Except Reject Instr) = .error e :=
  fun ⟨_, h⟩ => nomatch h

theorem exists_error_iff_of_ite (legal : Prop) [Decidable legal] (i : Instr) (r : Reject) :
    (∃ e, (if legal then .ok i else .error r : Except Reject Instr) = .error e) ↔ ¬ legal := by
  by_cases h : legal <;> simp [h]

/-- Settles O3, opcode by opcode: PULSE, BYTE and FIN have reserved bits, SIL and HDR none. -/
theorem illegalWordsByFields : Obligations.IllegalWordsByFields := by
  intro w
  rcases opcode_cases w with hop | hop | hop | hop | hop | hop
  · rw [decodeMop_sil hop, iff_false_left (not_exists_error_of_ok _)]; omega
  · rw [decodeMop_pulse hop, exists_error_iff_of_ite]; omega
  · rw [decodeMop_hdr hop, iff_false_left (not_exists_error_of_ok _)]; omega
  · rw [decodeMop_byte hop, exists_error_iff_of_ite]; omega
  · rw [decodeMop_fin hop, exists_error_iff_of_ite]; omega
  · exact ⟨fun _ => .inl hop, fun _ => ⟨_, decodeMop_reserved hop⟩⟩

/-- Settles O1: the micro-operation words and START are encodings, and 3 has bit 1 set. -/
theorem sampleWordsDecode : Obligations.SampleWordsDecode :=
  ⟨decodeMop_encode (i := .sil 43200) rfl rfl, decodeMop_encode (i := .sil 268435455) rfl rfl,
    decodeMop_encode (i := .pulse .long) rfl rfl, decodeMop_encode (i := .pulse .short) rfl rfl,
    decodeMop_encode (i := .hdr 16000) rfl rfl, decodeMop_encode (i := .byte 0x1A) rfl rfl,
    decodeMop_encode (i := .fin) rfl rfl, decodeCtrl_encode (i := .start) rfl, decodeCtrl_srst (by decide)⟩

/-- Settles O4, by the three answers of `decodeCtrl`; what `decodeMop` accepts is a micro-operation. -/
theorem ctrlWordByLowBits : Obligations.CtrlWordByLowBits := by
  refine ⟨fun c => ⟨decodeCtrl_srst, decodeCtrl_start, decodeCtrl_noCommand⟩, fun w i h => ?_⟩
  have hm : i.isMicroOp = true := decodeMop_isMicroOp h
  constructor <;> rintro rfl <;> cases hm

/-! ## The words of the assembler -/

theorem encode_eq_ofNat {i : Instr} {m : Nat} (h : (encode i).toNat = m) : encode i = BitVec.ofNat 32 m := by
  rw [← h, BitVec.ofNat_toNat, BitVec.setWidth_eq]

theorem encode_byte_ofNat_toNat {n : Nat} (h : n < 256) :
    (encode (.byte (BitVec.ofNat 8 n))).toNat = 0x40000000 + n := by
  rw [encode_byte_toNat, BitVec.toNat_ofNat, Nat.mod_eq_of_lt h]

/-- A line of one instruction under a range check: its word where the check holds, none where it fails (R102). -/
theorem assembleWords_checked {k m : Nat} {l : AsmLine} {inRange : Prop} [Decidable inRange] {i : Instr}
    (hline : assemble k l = if inRange then some [i] else none) (hword : inRange → (encode i).toNat = m) :
    assembleWords k l = if inRange then some [BitVec.ofNat 32 m] else none := by
  rw [assembleWords, hline]
  split
  next h => rw [← encode_eq_ofNat (hword h)]; rfl
  next => rfl

/-- Settles O18, operand by operand. -/
theorem outOfRangeOperandSpellsNoWord : Obligations.OutOfRangeOperandSpellsNoWord := fun n _ =>
  ⟨assembleWords_checked rfl encode_sil_toNat, assembleWords_checked rfl encode_hdr_toNat,
    assembleWords_checked rfl encode_byte_ofNat_toNat,
    assembleWords_checked rfl fun h : 1 ≤ n ∧ n ≤ 6213 => encode_sil_toNat (by rw [sampleRate]; omega)⟩

end Sys2Proof.Proofs
end

section
/-! The sample accumulator: what one `Emit` does (R122), and that the `Emit`s of a micro-operation follow one another up
to the first that does not fit (R120, R125, R126, R303). -/

namespace Sys2Proof.Proofs

open Sys2Proof.Machine Sys2Proof.Laws

/-! ## One `Emit` -/

theorem emit_of_room {s : State} (h : s.wp.toNat < s.cfg.outCap.toNat) (v : Byte) :
    emit v s = .ok { s with out := s.out.write s.wp.toNat v, wp := s.wp + 1 } :=
  if_neg (Nat.not_le.mpr h)

theorem emit_of_full {s : State} (h : s.cfg.outCap.toNat ≤ s.wp.toNat) (v : Byte) :
    emit v s = .error (raiseError .outputOverflow (some (.writePointer s.wp)) s) :=
  if_pos h

/-- R35, R122: below `OUT_CAP` the write pointer moves up without wrapping round. -/
theorem wp_succ_toNat {s : State} (h : s.wp.toNat < s.cfg.outCap.toNat) : (s.wp + 1).toNat = s.wp.toNat + 1 :=
  BitVec.toNat_add_of_lt (Nat.lt_of_le_of_lt h s.cfg.outCap.isLt)

/-- Settles O5, by the two sides of the bound. -/
theorem emitAppendsOrOverflows : Obligations.EmitAppendsOrOverflows := fun v s =>
  ⟨fun h => ⟨_, emit_of_room h v, rfl, wp_succ_toNat h, memory_read_write s.out s.wp.toNat v⟩,
    fun h => ⟨_, emit_of_full h v, rfl, rfl, rfl, rfl⟩⟩

/-! ## A list of them -/

theorem emitAll_nil (fin : Transient) (s : State) : emitAll [] fin s = { s with regs := fin } :=
  emitAll_eq_emitEach [] fin s

/-- Log 6: what the transient registers held before a micro-operation is read nowhere. -/
theorem emitAll_regs (es : List Emission) (fin r : Transient) (s : State) :
    emitAll es fin { s with regs := r } = emitAll es fin s := by
  cases es with
  | nil => rw [emitAll_nil, emitAll_nil]
  | cons e es => rw [emitAll_cons, emitAll_cons]

/-- R125: where the first sample fits, it is stored and the rest follows. -/
theorem emitAll_cons_of_room {s : State} (h : s.wp.toNat < s.cfg.outCap.toNat) (e : Emission) (es : List Emission)
    (fin : Transient) :
    emitAll (e :: es) fin s = emitAll es fin { s with out := s.out.write s.wp.toNat e.value, wp := s.wp + 1 } := by
  rw [emitAll_cons, emit_of_room (s := { s with regs := e.regs }) h]
  exact emitAll_regs es fin e.regs { s with out := s.out.write s.wp.toNat e.value, wp := s.wp + 1 }

/-- R126: where it does not fit, the micro-operation stops there. -/
theorem emitAll_cons_of_full {s : State} (h : s.cfg.outCap.toNat ≤ s.wp.toNat) (e : Emission) (es : List Emission)
    (fin : Transient) :
    emitAll (e :: es) fin s = raiseError .outputOverflow (some (.writePointer s.wp)) { s with regs := e.regs } := by
  rw [emitAll_cons, emit_of_full (s := { s with regs := e.regs }) h]

theorem emitAll_append_of_fits {es : List Emission} {s : State} (h : s.wp.toNat + es.length ≤ s.cfg.outCap.toNat)
    (fs : List Emission) (fin : Transient) : emitAll (es ++ fs) fin s = emitAll fs fin (emitAll es fin s) := by
  induction es generalizing s with
  | nil =>
    rw [List.nil_append, emitAll_nil]
    exact (emitAll_regs fs fin fin s).symm
  | cons e es ih =>
    rw [List.length_cons] at h
    have room : s.wp.toNat < s.cfg.outCap.toNat := by omega
    rw [List.cons_append, emitAll_cons_of_room room, emitAll_cons_of_room room]
    exact ih (by dsimp only; rw [wp_succ_toNat room]; omega)

theorem emitAll_append_of_overflow {es : List Emission} {s : State}
    (h : s.cfg.outCap.toNat < s.wp.toNat + es.length) (hwp : s.wp.toNat ≤ s.cfg.outCap.toNat)
    (fs : List Emission) (fin : Transient) : emitAll (es ++ fs) fin s = emitAll es fin s := by
  induction es generalizing s with
  | nil => exact absurd h (Nat.not_lt.mpr hwp)
  | cons e es ih =>
    rw [List.length_cons] at h
    rw [List.cons_append]
    rcases Nat.lt_or_ge s.wp.toNat s.cfg.outCap.toNat with room | full
    · have hnext := wp_succ_toNat room
      rw [emitAll_cons_of_room room, emitAll_cons_of_room room]
      exact ih (by dsimp only; omega) (by dsimp only; omega)
    · rw [emitAll_cons_of_full full, emitAll_cons_of_full full]

/-- Settles O6. -/
theorem emissionsCompose : Obligations.EmissionsCompose :=
  ⟨emitAll_nil, emitAll_cons, fun _ fs fin _ =>
    ⟨fun h => emitAll_append_of_fits h fs fin, fun hwp h => emitAll_append_of_overflow h hwp fs fin⟩⟩

/-! ## The sample-writing micro-operations at the capacity -/

/-- R180: SIL emits the samples of the rules whatever `BAUD` holds; the others need its factor. -/
theorem exec_emits_samples {i : Instr} {k : Nat} {s : State}
    (hk : baudFactor s.baud = some k ∨ ∃ n, i = .sil n)
    (hi : (∃ n, i = .sil n) ∨ (∃ t, i = .pulse t) ∨ (∃ p, i = .hdr p) ∨ ∃ d, i = .byte d) :
    ∃ es r, samplesOf es = microSamples k i ∧ es.length = sampleCount k i ∧ exec i s = .next (emitAll es r s) := by
  rcases hk with hk | ⟨n, rfl⟩
  · obtain ⟨hmicro, hfin⟩ : i.isMicroOp = true ∧ i ≠ .fin := by
      rcases hi with ⟨_, rfl⟩ | ⟨_, rfl⟩ | ⟨_, rfl⟩ | ⟨_, rfl⟩ <;> exact ⟨rfl, nofun⟩
    obtain ⟨es, r, hes, hexec⟩ := exec_emits hk i hmicro hfin
    exact ⟨es, r, hes, by rw [← samplesOf_length, hes, microSamples_length (baudFactor_one_or_two hk)], hexec⟩
  · obtain ⟨es, r, hes, hexec⟩ := exec_sil_emits n s
    exact ⟨es, r, hes, by rw [← samplesOf_length, hes, List.length_replicate]; rfl, hexec⟩

/-- What OUT memory holds once the first samples of a list have filled it up to an address. -/
theorem read_writeRun_take {wp cap : Nat} {vs : List Byte} (hwp : wp ≤ cap) (h : cap < wp + vs.length) (m : Memory)
    (a : Nat) :
    (m.writeRun wp (vs.take (cap - wp))).read a = if wp ≤ a ∧ a < cap then vs[a - wp]? else m.read a := by
  have hlen : wp + (vs.take (cap - wp)).length = cap := by rw [List.length_take]; omega
  rw [memory_read_writeRun, hlen]
  split
  next ha => exact List.getElem?_take_of_lt (by omega)
  next => rfl

/-- Settles O11: the four forms are runs of emissions, and `emitAll_overflow` says where such a run stops. -/
theorem overflowStopsAtCapacity : Obligations.OverflowStopsAtCapacity := by
  intro i k s hk hi hwp hover
  obtain ⟨es, r, hes, hlen, hexec⟩ := exec_emits_samples hk hi
  obtain ⟨regs, hstop⟩ := emitAll_overflow es r s hwp (by rwa [hlen])
  refine ⟨_, hexec.trans (congrArg _ hstop), rfl, fun a => ?_⟩
  rw [← hes]
  exact read_writeRun_take hwp (by rwa [samplesOf_length, hlen]) s.out a

end Sys2Proof.Proofs
end

section
/-! No turn of the block drops, moves or overwrites a sample (R125): samples are appended by the micro-operations alone,
FIN writes below them, and the moves of the TPSM do not touch OUT memory. -/

namespace Sys2Proof.Proofs

open Sys2Proof.Machine Sys2Proof.Laws

/-! ## The relation, and what it takes -/

/-- The samples of `s` stand in `s'` where they stood, with `wp` at or behind its old place. -/
def SamplesKept (s s' : State) : Prop :=
  s.wp.toNat ≤ s'.wp.toNat ∧ ∀ a, 44 ≤ a → a < s.wp.toNat → s'.out.read a = s.out.read a

theorem samplesKept_of_eq {s s' : State} (hout : s'.out = s.out) (hwp : s'.wp = s.wp) : SamplesKept s s' :=
  ⟨by rw [hwp], fun a _ _ => by rw [hout]⟩

theorem samplesKept_trans {s t u : State} (hst : SamplesKept s t) (htu : SamplesKept t u) : SamplesKept s u := by
  obtain ⟨hst_wp, hst_read⟩ := hst
  obtain ⟨htu_wp, htu_read⟩ := htu
  exact ⟨hst_wp.trans htu_wp, fun a hlow hhigh =>
    (htu_read a hlow (hhigh.trans_le hst_wp)).trans (hst_read a hlow hhigh)⟩

/-- An update of the state that touches neither OUT memory nor `wp`. -/
def LeavesSamples (f : State → State) : Prop := ∀ s, (f s).out = s.out ∧ (f s).wp = s.wp

theorem samplesKept_update {f : State → State} (hf : LeavesSamples f) (s : State) : SamplesKept s (f s) := by
  obtain ⟨hout, hwp⟩ := hf s
  exact samplesKept_of_eq hout hwp

theorem leavesSamples_raiseError (e : ErrCode) (x : Option ErrorInfo) : LeavesSamples (raiseError e x) :=
  fun _ => ⟨rfl, rfl⟩

theorem leavesSamples_endRun : LeavesSamples endRun := fun _ => ⟨rfl, rfl⟩

/-! ## Micro-operations -/

/-- R122: a store at `wp` is above every sample there is. -/
theorem samplesKept_store {s : State} (h : s.wp.toNat < s.cfg.outCap.toNat) (v : Byte) :
    SamplesKept s { s with out := s.out.write s.wp.toNat v, wp := s.wp + 1 } :=
  ⟨(Nat.le_succ _).trans (wp_succ_toNat h).ge, fun a _ hhigh => by
    rw [memory_read_write, if_neg (Nat.ne_of_lt hhigh)]⟩

theorem samplesKept_emitAll (es : List Emission) (fin : Transient) (s : State) : SamplesKept s (emitAll es fin s) := by
  induction es generalizing s with
  | nil =>
    rw [emitAll_nil]
    exact samplesKept_of_eq rfl rfl
  | cons e es ih =>
    rcases Nat.lt_or_ge s.wp.toNat s.cfg.outCap.toNat with room | full
    · rw [emitAll_cons_of_room room]
      exact samplesKept_trans (samplesKept_store room e.value) (ih _)
    · rw [emitAll_cons_of_full full]
      exact samplesKept_of_eq rfl rfl

/-- R240: the header stands below the samples. -/
theorem writeHeader_read_high (d : Word) (m : Memory) {a : Nat} (ha : 44 ≤ a) :
    (writeHeader (headerFields d) m).read a = m.read a :=
  writeHeader_read_outside m _ fun f hf hc => Nat.not_lt.mpr ha ((headerFields_cover d a).mp ⟨f, hf, hc⟩)

theorem samplesKept_exec {i : Instr} {s t : State} (hi : i.isMicroOp = true) (h : exec i s = .next t) :
    SamplesKept s t := by
  rcases exec_micro_cases i s hi with ⟨es, r, hexec⟩ | hexec | ⟨-, hexec⟩ <;> rw [hexec] at h <;> cases h
  · exact samplesKept_emitAll es r s
  · exact samplesKept_update (leavesSamples_raiseError _ _) s
  · exact ⟨Nat.le_refl _, fun a hlow _ => writeHeader_read_high _ _ hlow⟩

/-! ## Fetched turns -/

/-- Whatever state a fetched turn leads to, the samples of `s` stand in it. -/
def Appends (s : State) (f : Fetched) : Prop := ∀ t, outcome f = .next t → SamplesKept s t

theorem appends_next {s t : State} (h : SamplesKept s t) : Appends s (.settled (.next t)) := by
  rintro _ ⟨⟩
  exact h

theorem appends_update {f : State → State} (hf : LeavesSamples f) (s : State) : Appends s (.settled (.next (f s))) :=
  appends_next (samplesKept_update hf s)

theorem appends_run {i : Instr} {after : State → State} (hi : i.isMicroOp = true) (hafter : LeavesSamples after)
    (s : State) : Appends s (.run i s after) := by
  intro t ht
  obtain ⟨u, hu⟩ := exec_next i s
  rw [outcome, hu] at ht
  cases ht
  exact samplesKept_trans (samplesKept_exec hi hu) (samplesKept_update hafter u)

theorem leavesSamples_afterPortWord (i : Instr) : LeavesSamples (afterPortWord i) := by
  intro s
  cases i with
  | fin => exact leavesSamples_endRun s
  | _ => exact ⟨rfl, rfl⟩

/-- R266: a word of the micro-operation port. -/
theorem appends_portMove (ws : List Word) (s : State) : Appends s (portMove ws s) := by
  cases ws with
  | nil => exact appends_update leavesSamples_endRun s
  | cons w rest =>
    unfold portMove
    dsimp only
    cases hw : decodeMop w with
    | ok i => exact appends_run (decodeMop_isMicroOp hw) (leavesSamples_afterPortWord i) { s with prog := some rest }
    | error e => exact appends_update (leavesSamples_raiseError _ _) s

/-- R201: a word the TPSM issues, and what follows it. -/
theorem appends_issueFromTpsm (i : Instr) (s : State) {after : State → State} (hafter : LeavesSamples after) :
    Appends s (issueFromTpsm i s after) := by
  unfold issueFromTpsm issueWord
  cases hw : decodeMop (encode i) with
  | ok j =>
    refine appends_run (decodeMop_isMicroOp hw) (fun t => ?_) { s with trace := s.trace ++ [encode i] }
    split
    next => exact ⟨rfl, rfl⟩
    next => exact hafter t
  | error e => exact appends_update (leavesSamples_raiseError _ _) { s with trace := s.trace ++ [encode i] }

/-! ## The moves of the TPSM -/

theorem leavesSamples_dispatchBlock : LeavesSamples dispatchBlock := by
  intro s
  unfold dispatchBlock
  dsimp only
  split
  next => exact ⟨rfl, rfl⟩
  next => simp

theorem leavesSamples_scanMove : LeavesSamples scanMove := by
  intro s
  unfold scanMove
  dsimp only
  split
  next => exact ⟨rfl, rfl⟩
  next =>
    split
    next => simp [leavesSamples_dispatchBlock _]
    next => simp

theorem leavesSamples_afterByte : LeavesSamples afterByte := fun s => by simp [afterByte]

theorem leavesSamples_afterBinBasicChunk : LeavesSamples afterBinBasicChunk := by
  intro s
  unfold afterBinBasicChunk
  split <;> exact ⟨rfl, rfl⟩

theorem leavesSamples_afterChunk : LeavesSamples afterChunk := by
  intro s
  unfold afterChunk
  split
  next => exact ⟨rfl, rfl⟩
  next => split <;> exact ⟨rfl, rfl⟩
  next => exact leavesSamples_afterBinBasicChunk s
  next => exact leavesSamples_afterBinBasicChunk s

/-- R210: the per-byte phase of `Data()`. -/
theorem appends_bytesMove (s : State) : Appends s (bytesMove s) := by
  obtain ⟨bs, k, hwin, -⟩ := casWindow_state 8 s.pos.toNat s
  obtain ⟨b, n, hread⟩ := casRead_state s.pos.toNat { s with draws := k }
  unfold bytesMove
  simp only [hwin, hread]
  split
  next =>
    split
    next => exact appends_next (samplesKept_of_eq rfl rfl)
    next => exact appends_issueFromTpsm (.byte b) { s with draws := n } leavesSamples_afterByte
  next => exact appends_next (samplesKept_of_eq rfl rfl)

/-- R210, R211: the tail phase of `Data()`. -/
theorem appends_tailMove (t0 : Word) (s : State) : Appends s (tailMove t0 s) := by
  unfold tailMove
  split
  next =>
    obtain ⟨b, n, hread⟩ := casRead_state s.pos.toNat s
    rw [hread]
    exact appends_issueFromTpsm (.byte b) { s with draws := n } fun _ => ⟨rfl, rfl⟩
  next =>
    split
    next => exact appends_next (samplesKept_of_eq (by simp) (by simp))
    next => exact appends_next (samplesKept_of_eq rfl rfl)

theorem appends_policyMove (s : State) : Appends s (policyMove s) := by
  unfold policyMove
  split
  next => exact appends_issueFromTpsm _ s fun _ => ⟨rfl, rfl⟩
  next => exact appends_issueFromTpsm _ s fun _ => ⟨rfl, rfl⟩
  next => exact appends_bytesMove s
  next t0 _ => exact appends_tailMove t0 s
  next => exact appends_update leavesSamples_afterChunk s

theorem appends_tpsmMove (s : State) : Appends s (tpsmMove s) := by
  unfold tpsmMove
  split
  next => exact appends_next (samplesKept_of_eq rfl rfl)
  next => exact appends_update leavesSamples_scanMove s
  next => exact appends_policyMove s
  next => exact appends_issueFromTpsm .fin s leavesSamples_endRun

theorem appends_blockMove (s : State) : Appends s (blockMove s) := by
  unfold blockMove
  split
  next ws _ => exact appends_portMove ws s
  next => exact appends_tpsmMove s

/-- Settles O55: whatever move a turn of the block comes to appends at most. -/
theorem samplesStayOnceWritten : Obligations.SamplesStayOnceWritten := by
  intro s t _ hblock ht
  rw [step_blockTurn hblock] at ht
  exact appends_blockMove { s with schedule := s.schedule.tail } t ht

end Sys2Proof.Proofs
end

section
/-! The pulse synthesizer: the samples of a pulse are ROM36 at the phases of R143, their durations (R141, R148, R165,
R184), and that the ROM holds the sine of the source formula (R140, R142, R145). -/

namespace Sys2Proof.Proofs

open Sys2Proof.Machine Sys2Proof.Laws

/-! ## Lengths and phases -/

/-- R145, step 1: the samples of a pulse and its phase increment make one cycle of 36 phases. -/
theorem pulseLength_mul_phaseIncrement {k : Nat} (hk : k = 1 ∨ k = 2) (t : Tone) :
    pulseLength k t * phaseIncrement k t = 36 := by
  rcases hk with rfl | rfl <;> cases t <;> rfl

/-- R143: the phase never leaves the ROM inside a pulse. -/
theorem phase_lt {k n : Nat} {t : Tone} (hk : k = 1 ∨ k = 2) (hn : n < pulseLength k t) : n * phaseIncrement k t < 36 := by
  have hinc : 0 < phaseIncrement k t := by rcases hk with rfl | rfl <;> cases t <;> decide
  rw [← pulseLength_mul_phaseIncrement hk t]
  exact Nat.mul_lt_mul_of_pos_right hn hinc

theorem rom36_getElem? {m : Nat} (hm : m < 36) : rom36[m]? = some (romAt m) := by
  rw [romAt, List.getD_eq_getElem?_getD, List.getElem?_eq_getElem (show m < rom36.length from hm), Option.getD_some]

theorem pulseSamples_getElem? {k n : Nat} {t : Tone} (hn : n < pulseLength k t) :
    (pulseSamples k t)[n]? = some (romAt (n * phaseIncrement k t)) := by
  rw [pulseSamples, List.getElem?_map, List.getElem?_range hn, Option.map_some]

/-- R143: sample `n` of a pulse is `ROM36[n × inc]`. -/
theorem pulseSamples_getElem?_rom36 {k n : Nat} {t : Tone} (hk : k = 1 ∨ k = 2) (hn : n < pulseLength k t) :
    (pulseSamples k t)[n]? = rom36[n * phaseIncrement k t]? := by
  rw [pulseSamples_getElem? hn, rom36_getElem? (phase_lt hk hn)]

/-- The rows of R141, by the configuration register `BAUD`. -/
theorem pulse_row {t : Tone} {baud : Word} {l inc : Nat}
    (h : (baud = 1200 ∧ t = .long ∧ l = 36 ∧ inc = 1) ∨ (baud = 1200 ∧ t = .short ∧ l = 18 ∧ inc = 2) ∨
      (baud = 2400 ∧ t = .long ∧ l = 18 ∧ inc = 2) ∨ (baud = 2400 ∧ t = .short ∧ l = 9 ∧ inc = 4)) :
    ∃ k, baudFactor baud = some k ∧ l = pulseLength k t ∧ inc = phaseIncrement k t := by
  rcases h with ⟨rfl, rfl, rfl, rfl⟩ | ⟨rfl, rfl, rfl, rfl⟩ | ⟨rfl, rfl, rfl, rfl⟩ | ⟨rfl, rfl, rfl, rfl⟩
  · exact ⟨1, rfl, rfl, rfl⟩
  · exact ⟨1, rfl, rfl, rfl⟩
  · exact ⟨2, rfl, rfl, rfl⟩
  · exact ⟨2, rfl, rfl, rfl⟩

/-! ## PULSE where its samples fit -/

/-- R125: a sample-writing micro-operation that fits stores its samples at `wp` onward, moves `wp` past them and changes
nothing else but the transient registers. -/
theorem exec_stores_samples {i : Instr} {k : Nat} {s : State} (hk : baudFactor s.baud = some k ∨ ∃ n, i = .sil n)
    (hi : (∃ n, i = .sil n) ∨ (∃ t, i = .pulse t) ∨ (∃ p, i = .hdr p) ∨ ∃ d, i = .byte d)
    (hfit : s.wp.toNat + sampleCount k i ≤ s.cfg.outCap.toNat) :
    ∃ u, exec i s = .next u ∧ u = { s with out := u.out, wp := u.wp, regs := u.regs } ∧
      u.wp.toNat = s.wp.toNat + sampleCount k i ∧
      ∀ a, u.out.read a =
        if s.wp.toNat ≤ a ∧ a < s.wp.toNat + sampleCount k i then (microSamples k i)[a - s.wp.toNat]?
        else s.out.read a := by
  obtain ⟨es, r, hes, hlen, hexec⟩ := exec_emits_samples hk hi
  refine ⟨_, hexec.trans (congrArg _ (emitAll_fits es r s (hlen ▸ hfit))), rfl, ?_, fun a => ?_⟩
  · have hcap := s.cfg.outCap.isLt
    change (s.wp + BitVec.ofNat 32 es.length).toNat = _
    rw [hlen, BitVec.toNat_add, BitVec.toNat_ofNat]
    omega
  · rw [← hes, ← hlen, ← samplesOf_length es]
    exact memory_read_writeRun s.out s.wp.toNat (samplesOf es) a

/-- Settles O8: a PULSE that fits stores the samples of R143, and each of them is the ROM at its phase. -/
theorem pulseStoresOneCycle : Obligations.PulseStoresOneCycle := by
  intro t s l inc hrow hfit
  obtain ⟨k, hk, rfl, rfl⟩ := pulse_row hrow
  obtain ⟨u, hexec, hframe, hwp, hread⟩ := exec_stores_samples (.inl hk) (.inr (.inl ⟨t, rfl⟩)) hfit
  refine ⟨u, hexec, hframe, hwp, fun a => (hread a).trans ?_⟩
  refine ite_congr rfl (fun ⟨hlow, hhigh⟩ => ?_) fun _ => rfl
  exact pulseSamples_getElem?_rom36 (baudFactor_one_or_two hk) (Nat.sub_lt_left_of_lt_add hlow hhigh)

/-! ## Durations -/

/-- Settles O17: a micro-operation emits `sampleCount` samples, and these are the counts of R141, R165 and R184. -/
theorem durationsByBaud : Obligations.DurationsByBaud := by
  refine ⟨fun k hk => ⟨?_, fun d => microSamples_length hk (.byte d)⟩, fun t => ?_, fun s => ?_, rfl, rfl⟩
  · rcases hk with rfl | rfl <;> rfl
  · cases t <;> rfl
  · rw [microSamples_length (.inl rfl), microSamples_length (.inr rfl), sampleCount, sampleCount]
    omega

/-! ## Rounding toward zero -/

/-- `v` is `trunc x` (R140). -/
structure IsTrunc (x : ℝ) (v : ℤ) : Prop where
  floor_of_nonneg : 0 ≤ x → v = ⌊x⌋
  ceil_of_neg : x < 0 → v = ⌈x⌉

/-- Truncation is odd. -/
theorem IsTrunc.neg {x : ℝ} {v : ℤ} (h : IsTrunc x v) : IsTrunc (-x) (-v) where
  floor_of_nonneg hx := by
    rw [Int.floor_neg, neg_inj]
    rcases (neg_nonneg.mp hx).lt_or_eq with hneg | rfl
    · exact h.ceil_of_neg hneg
    · rw [h.floor_of_nonneg le_rfl, Int.floor_zero, Int.ceil_zero]
  ceil_of_neg hx := by rw [Int.ceil_neg, h.floor_of_nonneg (neg_neg_iff_pos.mp hx).le]

theorem isTrunc_of_sq {x : ℝ} {v : ℤ} (hx : 0 ≤ x) (hv : 0 ≤ v) (hlo : (v : ℝ) ^ 2 ≤ x ^ 2)
    (hhi : x ^ 2 < (v + 1 : ℝ) ^ 2) : IsTrunc x v where
  floor_of_nonneg _ := by
    have hv' : (0 : ℝ) ≤ v := Int.cast_nonneg hv
    exact (Int.floor_eq_iff.mpr ⟨le_of_sq_le_sq hlo hx, lt_of_pow_lt_pow_left₀ 2 (by linarith) hhi⟩).symm
  ceil_of_neg hneg := absurd hx (not_le.mpr hneg)

/-! ## The cosines of the multiples of 20 degrees -/

/-- `cos (m × 20°)` lies between two numbers of ten-thousandths. -/
def CosWithin (m : ℕ) (lo hi : ℤ) : Prop :=
  lo ≤ 10000 * Real.cos (m * (Real.pi / 9)) ∧ 10000 * Real.cos (m * (Real.pi / 9)) ≤ hi

/-- `cos (π - x) = - cos x`. -/
theorem CosWithin.reflect {m : ℕ} {lo hi : ℤ} (hm : m ≤ 9) (h : CosWithin m lo hi) : CosWithin (9 - m) (-hi) (-lo) := by
  obtain ⟨hlo, hhi⟩ := h
  have hangle : ((9 - m : ℕ) : ℝ) * (Real.pi / 9) = Real.pi - m * (Real.pi / 9) := by
    rw [Nat.cast_sub hm]
    push_cast
    ring
  rw [CosWithin, hangle, Real.cos_pi_sub]
  push_cast
  constructor <;> linarith

/-- The double-angle formula on bounds, where they are not negative. -/
theorem CosWithin.double {m : ℕ} {lo hi lo' hi' : ℤ} (h : CosWithin m lo hi) (h0 : 0 ≤ lo)
    (hlo : 10000 * lo' ≤ 2 * lo ^ 2 - 10000 ^ 2) (hhi : 2 * hi ^ 2 - 10000 ^ 2 ≤ 10000 * hi') :
    CosWithin (2 * m) lo' hi' := by
  obtain ⟨hl, hh⟩ := h
  have h0' : (0 : ℝ) ≤ lo := Int.cast_nonneg h0
  have hlo2 := pow_le_pow_left₀ h0' hl 2
  have hhi2 := pow_le_pow_left₀ (h0'.trans hl) hh 2
  have hlo' : (10000 * lo' : ℝ) ≤ 2 * lo ^ 2 - 10000 ^ 2 := by exact_mod_cast hlo
  have hhi' : (2 * hi ^ 2 - 10000 ^ 2 : ℝ) ≤ 10000 * hi' := by exact_mod_cast hhi
  rw [CosWithin, Nat.cast_mul, Nat.cast_two, mul_assoc, Real.cos_two_mul]
  constructor <;> nlinarith

theorem cosWithin_zero : CosWithin 0 10000 10000 := by norm_num [CosWithin]

theorem cosWithin_three : CosWithin 3 5000 5000 := by
  have hcos : Real.cos (3 * (Real.pi / 9)) = 1 / 2 := by rw [← Real.cos_pi_div_three]; ring_nf
  norm_num [CosWithin, hcos]

/-- The polynomial of the triple-angle formula rises above 1/2. -/
theorem tripleAngle_lt {x y : ℝ} (hx : 1 / 2 < x) (hxy : x < y) : 4 * x ^ 3 - 3 * x < 4 * y ^ 3 - 3 * y := by
  have hslope : 0 < 4 * (x ^ 2 + x * y + y ^ 2) - 3 := by nlinarith
  have hdiff := mul_pos (sub_pos.mpr hxy) hslope
  linarith

/-- `cos 20°` is the root above 1/2 of `4y³ - 3y = cos 60°`, and the polynomial has passed 1/2 between the two bounds. -/
theorem cosWithin_one : CosWithin 1 9396 9397 := by
  have hroot : 4 * Real.cos (Real.pi / 9) ^ 3 - 3 * Real.cos (Real.pi / 9) = 1 / 2 := by
    rw [← Real.cos_three_mul, ← Real.cos_pi_div_three]
    ring_nf
  have hhalf : 1 / 2 < Real.cos (Real.pi / 9) := by
    have hpi := Real.pi_pos
    rw [← Real.cos_pi_div_three]
    exact Real.cos_lt_cos_of_nonneg_of_le_pi (by linarith) (by linarith) (by linarith)
  rw [CosWithin, Nat.cast_one, one_mul]
  generalize Real.cos (Real.pi / 9) = y at hroot hhalf
  push_cast
  constructor <;> by_contra! hout
  · have hlow := tripleAngle_lt hhalf (show y < 0.9396 by linarith)
    norm_num [hroot] at hlow
  · have hhigh := tripleAngle_lt (by norm_num) (show 0.9397 < y by linarith)
    norm_num [hroot] at hhigh

theorem cosWithin_two : CosWithin 2 7656 7661 := cosWithin_one.double (by norm_num) (by norm_num) (by norm_num)

theorem cosWithin_four : CosWithin 4 1722 1739 := cosWithin_two.double (by norm_num) (by norm_num) (by norm_num)

/-! ## The ROM holds the truncated sine -/

/-- What a biased sample stands for (R142: `s = ROM36[m] - 128`). -/
def signedSample (b : Byte) : ℤ := b.toNat - 128

/-- R146: the sign bit inverted is 128 added. -/
theorem bias_signedSample (b : Byte) : BitVec.ofInt 8 (signedSample b) ^^^ 0x80 = b := by
  revert b
  decide

/-- `v` is the truncated sine at phase `m`, `trunc(127 × sin(2π × m / 36))` (R142). -/
def SineAt (m : ℕ) (v : ℤ) : Prop := IsTrunc (127 * Real.sin (m * (Real.pi / 18))) v

/-- A sine is fixed by its square, and `2 sin² x = 1 - cos 2x`: bounds of the cosine that keep the square between those of
`v` and `v + 1`. -/
theorem CosWithin.sineAt {m : ℕ} {lo hi v : ℤ} (h : CosWithin m lo hi) (hm : m ≤ 18)
    (hv : 0 ≤ v ∧ 20000 * v ^ 2 ≤ 127 ^ 2 * (10000 - hi) ∧ 127 ^ 2 * (10000 - lo) < 20000 * (v + 1) ^ 2) :
    SineAt m v := by
  obtain ⟨hl, hh⟩ := h
  obtain ⟨hv0, hvlo, hvhi⟩ := hv
  have hm' : (m : ℝ) ≤ 18 := by exact_mod_cast hm
  have hvlo' : (20000 * v ^ 2 : ℝ) ≤ 127 ^ 2 * (10000 - hi) := by exact_mod_cast hvlo
  have hvhi' : (127 ^ 2 * (10000 - lo) : ℝ) < 20000 * (v + 1) ^ 2 := by exact_mod_cast hvhi
  have hpi := Real.pi_pos
  have hsin : 0 ≤ Real.sin (m * (Real.pi / 18)) :=
    Real.sin_nonneg_of_nonneg_of_le_pi (by positivity) (by nlinarith)
  have hsq : (127 * Real.sin (m * (Real.pi / 18))) ^ 2 = 127 ^ 2 / 2 * (1 - Real.cos (m * (Real.pi / 9))) := by
    rw [mul_pow, Real.sin_sq_eq_half_sub, show 2 * (m * (Real.pi / 18)) = m * (Real.pi / 9) by ring]
    ring
  exact isTrunc_of_sq (by positivity) hv0 (by linarith) (by linarith)

/-- Phases 0 to 9, the rising quarter. -/
theorem sineAt_quarter : ∀ m, m ≤ 9 → SineAt m (signedSample (romAt m))
  | 0, _ => cosWithin_zero.sineAt (by decide) (by decide)
  | 1, _ => cosWithin_one.sineAt (by decide) (by decide)
  | 2, _ => cosWithin_two.sineAt (by decide) (by decide)
  | 3, _ => cosWithin_three.sineAt (by decide) (by decide)
  | 4, _ => cosWithin_four.sineAt (by decide) (by decide)
  | 5, _ => (cosWithin_four.reflect (by decide)).sineAt (by decide) (by decide)
  | 6, _ => (cosWithin_three.reflect (by decide)).sineAt (by decide) (by decide)
  | 7, _ => (cosWithin_two.reflect (by decide)).sineAt (by decide) (by decide)
  | 8, _ => (cosWithin_one.reflect (by decide)).sineAt (by decide) (by decide)
  | 9, _ => (cosWithin_zero.reflect (by decide)).sineAt (by decide) (by decide)

/-- `sin (π - x) = sin x`. -/
theorem SineAt.mirror {m : ℕ} {v : ℤ} (hm : m ≤ 18) (h : SineAt m v) : SineAt (18 - m) v := by
  have hangle : ((18 - m : ℕ) : ℝ) * (Real.pi / 18) = Real.pi - m * (Real.pi / 18) := by
    rw [Nat.cast_sub hm]
    push_cast
    ring
  rwa [SineAt, hangle, Real.sin_pi_sub]

/-- `sin (x + π) = - sin x`. -/
theorem SineAt.halfTurn {m : ℕ} {v : ℤ} (h : SineAt m v) : SineAt (m + 18) (-v) := by
  have hangle : ((m + 18 : ℕ) : ℝ) * (Real.pi / 18) = m * (Real.pi / 18) + Real.pi := by
    push_cast
    ring
  rw [SineAt, hangle, Real.sin_add_pi, mul_neg]
  exact h.neg

/-- The ROM has the two symmetries of the sine. -/
theorem romAt_mirror : ∀ m ≤ 9, romAt (18 - m) = romAt m := by decide

theorem romAt_halfTurn : ∀ m < 18, signedSample (romAt (m + 18)) = -signedSample (romAt m) := by decide

/-- Phases 0 to 18, the positive half. -/
theorem sineAt_half {m : ℕ} (hm : m ≤ 18) : SineAt m (signedSample (romAt m)) := by
  rcases Nat.le_total m 9 with hlow | hhigh
  · exact sineAt_quarter m hlow
  · obtain ⟨j, hj, rfl⟩ : ∃ j, j ≤ 9 ∧ m = 18 - j := ⟨18 - m, by omega, by omega⟩
    rw [romAt_mirror j hj]
    exact (sineAt_quarter j hj).mirror (by omega)

/-- R142: every entry of the ROM is the truncated sine of its phase. -/
theorem sineAt_rom {m : ℕ} (hm : m < 36) : SineAt m (signedSample (romAt m)) := by
  rcases Nat.lt_or_ge m 18 with hlow | hhigh
  · exact sineAt_half hlow.le
  · obtain ⟨j, hj, rfl⟩ : ∃ j, j < 18 ∧ m = j + 18 := ⟨m - 18, by omega, by omega⟩
    rw [romAt_halfTurn j hj]
    exact (sineAt_half hj.le).halfTurn

/-- R145, step 1: `2πn / L = 2π(n × inc) / 36`. -/
theorem sample_angle {k : Nat} (hk : k = 1 ∨ k = 2) (t : Tone) (n : Nat) :
    2 * Real.pi * n / pulseLength k t = ((n * phaseIncrement k t : ℕ) : ℝ) * (Real.pi / 18) := by
  have hcycle : (pulseLength k t : ℝ) * phaseIncrement k t = 36 := by
    exact_mod_cast pulseLength_mul_phaseIncrement hk t
  have hlen : (pulseLength k t : ℝ) ≠ 0 := fun h => by norm_num [h] at hcycle
  rw [div_eq_iff hlen]
  push_cast
  linear_combination (-(Real.pi * n / 18)) * hcycle

/-- Settles O16: sample `n` is the ROM at phase `n × inc`, whose angle is the one of the formula. -/
theorem sineRomIsTheDocumentsFormula : Obligations.SineRomIsTheDocumentsFormula := by
  intro k t hk n hn
  obtain ⟨hfloor, hceil⟩ : SineAt (n * phaseIncrement k t) _ := sineAt_rom (phase_lt hk hn)
  rw [← sample_angle hk t n] at hfloor hceil
  refine ⟨_, hfloor, hceil, ?_⟩
  rw [bias_signedSample, pulseSamples_getElem? hn]

end Sys2Proof.Proofs
end

section
/-! The line encoder: BYTE is eleven symbols of one duration (R160 to R165), and on OUT memory and `wp` it is its
sequence of pulses (R166). -/

namespace Sys2Proof.Proofs

open Sys2Proof.Machine Sys2Proof.Laws

/-! ## The symbols of a byte -/

/-- The bit whose symbol stands at position `j` of a byte: the LONG start pulse is the symbol of a 0 (R161), then come
the data bits least significant first (R163), and each half of the stop framing is the symbol of a 1 (R164). -/
def symbolBit (d : Byte) (j : Nat) : Bool := decide (9 ≤ j ∨ (1 ≤ j ∧ d.getLsbD (j - 1) = true))

theorem symbolBit_data (d : Byte) {i : Nat} (hi : i < 8) : symbolBit d (i + 1) = d.getLsbD i := by
  have hstop : ¬ 9 ≤ i + 1 := by omega
  simp [symbolBit, hstop]

/-- R165: a byte is the symbols of its 11 positions. -/
theorem byteSamples_eq_symbols (k : Nat) (d : Byte) :
    byteSamples k d = (List.range 11).flatMap fun j => bitSamples k (symbolBit d j) := by
  have hpos : List.range 11 = [0] ++ (List.range 8).map (· + 1) ++ [9, 10] := rfl
  have hdata : ((List.range 8).flatMap fun i => bitSamples k (symbolBit d (i + 1))) =
      (List.range 8).flatMap fun i => bitSamples k (d.getLsbD i) :=
    List.flatMap_congr fun i hi => by rw [symbolBit_data d (List.mem_range.mp hi)]
  rw [hpos, List.flatMap_append, List.flatMap_append, List.flatMap_map, hdata]
  simp [byteSamples, symbolBit, bitSamples, stopPulses, List.replicate_succ]

/-- Where every block of a list has length `len`, entry `j * len + n` is entry `n` of block `j`. -/
theorem flatMap_getElem?_of_length {α : Type} {f : α → List Byte} {len n : Nat} (hlen : ∀ x, (f x).length = len)
    (hn : n < len) (l : List α) (j : Nat) : (l.flatMap f)[j * len + n]? = l[j]?.bind fun x => (f x)[n]? := by
  induction l generalizing j with
  | nil => simp
  | cons x l ih =>
    rw [List.flatMap_cons]
    cases j with
    | zero =>
      rw [Nat.zero_mul, Nat.zero_add, List.getElem?_append_left (by rw [hlen]; exact hn)]
      rfl
    | succ j =>
      have hskip : (j + 1) * len + n = len + (j * len + n) := by rw [Nat.succ_mul]; omega
      rw [hskip, List.getElem?_append_right (by rw [hlen]; omega), hlen, Nat.add_sub_cancel_left, ih,
        List.getElem?_cons_succ]

/-- R162: the symbol of a 1 is two SHORT pulses, that of a 0 one LONG pulse, each read from the ROM at its phases. -/
theorem bitSamples_getElem? {k n : Nat} (hk : k = 1 ∨ k = 2) (hn : n < 36 / k) (b : Bool) :
    (bitSamples k b)[n]? = if b = true then rom36[n % (18 / k) * (2 * k)]? else rom36[n * k]? := by
  have hlong : pulseLength k .long = 36 / k := by rcases hk with rfl | rfl <;> rfl
  have hshort : pulseLength k .short = 18 / k := by rcases hk with rfl | rfl <;> rfl
  cases b with
  | false =>
    have hrom := pulseSamples_getElem?_rom36 (t := .long) hk (hlong ▸ hn)
    rwa [phaseIncrement, toneRatio, Nat.one_mul] at hrom
  | true =>
    have hrom {m : Nat} (hm : m < 18 / k) : (pulseSamples k .short)[m]? = rom36[m * (2 * k)]? :=
      pulseSamples_getElem?_rom36 hk (hshort ▸ hm)
    change (pulseSamples k .short ++ pulseSamples k .short)[n]? = rom36[n % (18 / k) * (2 * k)]?
    rcases Nat.lt_or_ge n (18 / k) with hfirst | hsecond
    · rw [List.getElem?_append_left (by rwa [pulseSamples_length, hshort]), Nat.mod_eq_of_lt hfirst, hrom hfirst]
    · have hrest : n - 18 / k < 18 / k := by rcases hk with rfl | rfl <;> omega
      rw [List.getElem?_append_right (by rwa [pulseSamples_length, hshort]), pulseSamples_length, hshort, hrom hrest,
        Nat.mod_eq_sub_mod hsecond, Nat.mod_eq_of_lt hrest]

/-- Sample `n` of symbol `j` of a byte. -/
theorem byteSamples_getElem? {k j n : Nat} (hk : k = 1 ∨ k = 2) (d : Byte) (hj : j < 11) (hn : n < 36 / k) :
    (byteSamples k d)[j * (36 / k) + n]? =
      if 9 ≤ j ∨ (1 ≤ j ∧ d.getLsbD (j - 1) = true) then rom36[n % (18 / k) * (2 * k)]? else rom36[n * k]? := by
  rw [byteSamples_eq_symbols, flatMap_getElem?_of_length (fun _ => bitSamples_length hk _) hn, List.getElem?_range hj,
    Option.bind_some, bitSamples_getElem? hk hn]
  simp only [symbolBit, decide_eq_true_eq]

/-- Settles O10: a BYTE that fits stores its eleven symbols at `wp` onward. -/
theorem byteStoresLineCode : Obligations.ByteStoresLineCode := by
  intro d s k hrow hfit
  have hk : baudFactor s.baud = some k := by
    rcases hrow with ⟨hb, rfl⟩ | ⟨hb, rfl⟩ <;> rw [hb] <;> rfl
  have h12 := baudFactor_one_or_two hk
  obtain ⟨u, hexec, hframe, hwp, hread⟩ := exec_stores_samples (.inl hk) (.inr (.inr (.inr ⟨d, rfl⟩))) hfit
  refine ⟨u, hexec, hframe, hwp, fun a ha => (hread a).trans (if_neg ha), fun j n hj hn => ?_⟩
  have hinside : j * (36 / k) + n < 396 / k := by rcases h12 with rfl | rfl <;> omega
  rw [hread, sampleCount, if_pos (by omega), Nat.add_assoc, Nat.add_sub_cancel_left]
  exact byteSamples_getElem? h12 d hj hn

/-! ## The sample accumulator as OUT memory and `wp` alone -/

/-- What the samples of a micro-operation act on (R120). -/
def accumulator (s : State) : Memory × Word := (s.out, s.wp)

/-- The effect of one `Emit` on OUT memory and `wp` (R122): none once the memory is full. -/
def storeSample (cap : Word) (m : Memory × Word) (v : Byte) : Memory × Word :=
  if cap.toNat ≤ m.2.toNat then m else (m.1.write m.2.toNat v, m.2 + 1)

theorem storeSamples_of_full {cap : Word} {m : Memory × Word} (h : cap.toNat ≤ m.2.toNat) (vs : List Byte) :
    vs.foldl (storeSample cap) m = m := by
  induction vs with
  | nil => rfl
  | cons v vs ih => rwa [List.foldl_cons, storeSample, if_pos h]

theorem samplesOf_cons (e : Emission) (es : List Emission) : samplesOf (e :: es) = e.value :: samplesOf es := rfl

/-- R125, R126: a run of emissions acts on OUT memory and `wp` by its samples alone, also where they do not fit. -/
theorem accumulator_emitAll (es : List Emission) (fin : Transient) (s : State) :
    accumulator (emitAll es fin s) = (samplesOf es).foldl (storeSample s.cfg.outCap) (accumulator s) := by
  induction es generalizing s with
  | nil =>
    rw [emitAll_nil]
    rfl
  | cons e es ih =>
    rcases Nat.lt_or_ge s.wp.toNat s.cfg.outCap.toNat with room | full
    · have hstore : storeSample s.cfg.outCap (accumulator s) e.value = (s.out.write s.wp.toNat e.value, s.wp + 1) :=
        if_neg (Nat.not_le.mpr room)
      rw [emitAll_cons_of_room room, ih, samplesOf_cons, List.foldl_cons, hstore]
      rfl
    · rw [emitAll_cons_of_full full, storeSamples_of_full full]
      rfl

/-! ## Sequences of pulses -/

/-- The samples a PULSE or BYTE makes at a `BAUD`; at an illegal one it makes none (U17; log 13). -/
def samplesAtBaud (baud : Word) (i : Instr) : List Byte := (baudFactor baud).elim [] fun k => microSamples k i

/-- What a PULSE or BYTE does to OUT memory and `wp`, in every state. -/
theorem exec_pulses_accumulator {i : Instr} (hi : (∃ t, i = .pulse t) ∨ ∃ d, i = .byte d) (s : State) :
    ∃ u, exec i s = .next u ∧ u.cfg = s.cfg ∧ u.baud = s.baud ∧
      accumulator u = (samplesAtBaud s.baud i).foldl (storeSample s.cfg.outCap) (accumulator s) := by
  rcases hb : baudFactor s.baud with _ | k
  · refine ⟨raiseError .badConfig none s, ?_, rfl, rfl, by rw [samplesAtBaud, hb]; rfl⟩
    rcases hi with ⟨t, rfl⟩ | ⟨d, rfl⟩
    · exact congrArg _ (withBaudFactor_none hb _)
    · exact congrArg _ (withBaudFactor_none hb _)
  · obtain ⟨es, r, hes, -, hexec⟩ := exec_emits_samples (.inl hb) (.inr (hi.imp_right .inr))
    refine ⟨emitAll es r s, hexec, emitAll_cfg es r s, emitAll_baud es r s, ?_⟩
    rw [accumulator_emitAll, hes, samplesAtBaud, hb]
    rfl

/-- A sequence of them stores their samples one after another; after an overflow the rest stores nothing. -/
theorem execSeq_pulses_accumulator {is : List Instr} (his : ∀ i ∈ is, (∃ t, i = .pulse t) ∨ ∃ d, i = .byte d)
    (s : State) :
    ∃ u, execSeq is s = .next u ∧
      accumulator u = (is.flatMap (samplesAtBaud s.baud)).foldl (storeSample s.cfg.outCap) (accumulator s) := by
  induction is generalizing s with
  | nil => exact ⟨s, rfl, rfl⟩
  | cons i is ih =>
    obtain ⟨hi, his⟩ := List.forall_mem_cons.mp his
    obtain ⟨t, hexec, hcfg, hbaud, hfirst⟩ := exec_pulses_accumulator hi s
    obtain ⟨u, hseq, hrest⟩ := ih his t
    refine ⟨u, by rwa [execSeq, hexec], ?_⟩
    rw [hrest, hfirst, hcfg, hbaud, List.flatMap_cons, List.foldl_append]

/-! ## The expansion law -/

theorem mem_bitInstrs {i : Instr} {b : Bool} (h : i ∈ bitInstrs b) : ∃ t, i = .pulse t := by
  cases b with
  | false => exact ⟨.long, by simpa [bitInstrs] using h⟩
  | true => exact ⟨.short, by simpa [bitInstrs] using h⟩

/-- R166: the sequence is one of pulses. -/
theorem mem_byteExpansion {i : Instr} {d : Byte} (h : i ∈ byteExpansion d) : ∃ t, i = .pulse t := by
  rw [byteExpansion, List.mem_append, List.mem_append] at h
  rcases h with (hstart | hdata) | hstop
  · exact ⟨.long, List.mem_singleton.mp hstart⟩
  · obtain ⟨_, _, hbit⟩ := List.mem_flatMap.mp hdata
    exact mem_bitInstrs hbit
  · exact ⟨.short, List.eq_of_mem_replicate hstop⟩

theorem bitInstrs_samples (k : Nat) (b : Bool) : (bitInstrs b).flatMap (microSamples k) = bitSamples k b := by
  cases b <;> simp [bitInstrs, bitSamples, microSamples]

theorem byteExpansion_samples (k : Nat) (d : Byte) : (byteExpansion d).flatMap (microSamples k) = byteSamples k d := by
  have hdata : ((List.range 8).flatMap fun i => bitInstrs (d.getLsbD i)).flatMap (microSamples k) =
      (List.range 8).flatMap fun i => bitSamples k (d.getLsbD i) := by
    simp only [List.flatMap_assoc, bitInstrs_samples]
  rw [byteExpansion, List.flatMap_append, List.flatMap_append, hdata, List.flatMap_singleton, List.flatMap_replicate]
  rfl

theorem byteExpansion_samplesAtBaud (baud : Word) (d : Byte) :
    (byteExpansion d).flatMap (samplesAtBaud baud) = samplesAtBaud baud (.byte d) := by
  unfold samplesAtBaud
  cases baudFactor baud with
  | none => exact List.flatMap_eq_nil_iff.mpr fun _ _ => rfl
  | some k => exact byteExpansion_samples k d

/-- Settles O13: BYTE and its sequence of pulses store the same samples. -/
theorem byteExpansionLaw : Obligations.ByteExpansionLaw := by
  intro d s
  obtain ⟨t, hbyte, -, -, ht⟩ := exec_pulses_accumulator (.inr ⟨d, rfl⟩) s
  obtain ⟨u, hseq, hu⟩ := execSeq_pulses_accumulator (fun _ h => .inl (mem_byteExpansion h)) s
  rw [byteExpansion_samplesAtBaud, ← ht] at hu
  exact ⟨t, u, hbyte, hseq, (congrArg Prod.fst hu).symm, (congrArg Prod.snd hu).symm⟩

end Sys2Proof.Proofs
end

section
/-! Silence and headers: SIL stores midline samples (R180), HDR a train of SHORT pulses (R181), and which header the TPSM
issues before a chunk (R183). -/

namespace Sys2Proof.Proofs

open Sys2Proof.Machine Sys2Proof.Laws

/-! ## SIL where its samples fit -/

/-- Settles O7: a SIL that fits stores its samples at `wp` onward, each of them the midline. The baud factor 1
stands for any: neither the count nor the samples of a SIL depend on it. -/
theorem silStoresMidlineSamples : Obligations.SilStoresMidlineSamples := by
  intro n s hfit
  obtain ⟨t, hexec, hframe, hwp, hread⟩ := exec_stores_samples (k := 1) (.inr ⟨n, rfl⟩) (.inl ⟨n, rfl⟩) hfit
  refine ⟨t, hexec, hframe, hwp, fun a => (hread a).trans ?_⟩
  refine ite_congr rfl (fun ⟨hlow, hhigh⟩ => ?_) fun _ => rfl
  exact List.getElem?_replicate_of_lt (Nat.sub_lt_left_of_lt_add hlow hhigh)

/-! ## HDR where its samples fit -/

/-- A list repeated end to end is periodic. -/
theorem flatten_replicate_getElem? {vs : List Byte} {p m : Nat} (hm : m < p * vs.length) :
    (List.replicate p vs).flatten[m]? = vs[m % vs.length]? := by
  have hlen : 0 < vs.length := Nat.pos_of_lt_mul_left hm
  have hblock : m / vs.length < p := Nat.div_lt_of_lt_mul (Nat.mul_comm p _ ▸ hm)
  have hentry := flatMap_getElem?_of_length (f := fun _ : Nat => vs) (fun _ => rfl) (Nat.mod_lt m hlen) (List.range p)
    (m / vs.length)
  rwa [flatMap_range_const, Nat.div_add_mod', List.getElem?_range hblock, Option.bind_some] at hentry

/-- R181: HDR emits as many samples as its SHORT pulses have. -/
theorem sampleCount_hdr {k : Nat} (hk : k = 1 ∨ k = 2) (p : Nat) :
    sampleCount k (.hdr p) = p * pulseLength k .short := by
  rcases hk with rfl | rfl <;> rfl

/-- R143, R181: every pulse of a header starts again at phase 0. -/
theorem hdrSamples_getElem? {k p m : Nat} (hk : k = 1 ∨ k = 2) (hm : m < p * pulseLength k .short) :
    (microSamples k (.hdr p))[m]? = rom36[m % pulseLength k .short * phaseIncrement k .short]? := by
  have hpulse : 0 < pulseLength k .short := Nat.pos_of_lt_mul_left hm
  rw [microSamples, flatten_replicate_getElem? (by rwa [pulseSamples_length]), pulseSamples_length,
    pulseSamples_getElem?_rom36 hk (Nat.mod_lt m hpulse)]

/-- Settles O9: a HDR that fits stores its train of SHORT pulses at `wp` onward. -/
theorem hdrStoresShortPulses : Obligations.HdrStoresShortPulses := by
  intro p s l inc hrow hfit
  obtain ⟨k, hk, rfl, rfl⟩ : ∃ k, baudFactor s.baud = some k ∧ l = pulseLength k .short ∧ inc = phaseIncrement k .short :=
    pulse_row <| hrow.elim (fun ⟨hb, hrest⟩ => .inr (.inl ⟨hb, rfl, hrest⟩))
      fun ⟨hb, hrest⟩ => .inr (.inr (.inr ⟨hb, rfl, hrest⟩))
  have h12 := baudFactor_one_or_two hk
  rw [← sampleCount_hdr h12] at hfit ⊢
  obtain ⟨u, hexec, hframe, hwp, hread⟩ := exec_stores_samples (.inl hk) (.inr (.inr (.inl ⟨p, rfl⟩))) hfit
  refine ⟨u, hexec, hframe, hwp, fun a => (hread a).trans ?_⟩
  refine ite_congr rfl (fun ⟨hlow, hhigh⟩ => ?_) fun _ => rfl
  exact hdrSamples_getElem? h12 (sampleCount_hdr h12 p ▸ Nat.sub_lt_left_of_lt_add hlow hhigh)

/-! ## The header before a chunk -/

/-- R201: a word the TPSM issues is the word of a well-formed micro-operation, so the modulator executes just that one,
and the TPSM goes on unless it raised an error. -/
theorem outcome_issueFromTpsm {i : Instr} (hwf : WellFormed i = true) (hm : i.isMicroOp = true) (s : State)
    (after : State → State) :
    outcome (issueFromTpsm i s after) =
      thenDo (exec i { s with trace := s.trace ++ [encode i] }) (tpsmThen after) := by
  rw [issueFromTpsm, issueWord, decodeMop_encode hwf hm]
  rfl

theorem step_dispatching {s : State} (hturn : s.tpsmTurn) (hst : s.st = .dispatching) :
    step s = outcome (policyMove s) := by
  rw [step_eq_outcome, fetch_tpsm hturn, tpsmMove, hst]

theorem policyMove_header {s : State} (hstage : s.stage = .header) :
    policyMove s = issueFromTpsm (.hdr (chunkHeader s)) s fun t => { t with stage := .bytes, eof := false } := by
  rw [policyMove, hstage]

/-- R183, row by row. -/
theorem chunkHeader_row {s : State} {p : Nat}
    (h : (s.baud = 1200 ∧ s.further = false ∧ p = 16000) ∨ (s.baud = 1200 ∧ s.further = true ∧ p = 4000) ∨
      (s.baud = 2400 ∧ s.further = false ∧ p = 32000) ∨ (s.baud = 2400 ∧ s.further = true ∧ p = 8000)) :
    chunkHeader s = p := by
  rcases h with ⟨hb, hf, rfl⟩ | ⟨hb, hf, rfl⟩ | ⟨hb, hf, rfl⟩ | ⟨hb, hf, rfl⟩ <;> rw [chunkHeader, hb, hf] <;> rfl

/-- R95: the longest header, 32000 pulses at 2400 baud, fits the 28 bits of `ARG`, and every count before a chunk is at
most that. -/
theorem chunkHeader_wellFormed {s : State} (h : s.baud = 1200 ∨ s.baud = 2400) :
    WellFormed (.hdr (chunkHeader s)) = true := by
  have hle : chunkHeader s ≤ 32000 := by
    rcases h with hb | hb <;> cases hf : s.further <;> rw [chunkHeader, hb, hf] <;> decide
  exact decide_eq_true (hle.trans_lt (by decide))

/-- Settles O34: the move at this place of the policy issues the HDR of `chunkHeader`. -/
theorem headerBeforeChunk : Obligations.HeaderBeforeChunk := by
  intro s p hturn hst hstage hrow
  have hbaud : s.baud = 1200 ∨ s.baud = 2400 := by tauto
  rw [step_dispatching hturn hst, policyMove_header hstage,
    outcome_issueFromTpsm (chunkHeader_wellFormed hbaud) rfl, chunkHeader_row hrow]

end Sys2Proof.Proofs
end

section
/-! The scan for a marker and the dispatch of the block behind it (R205 to R209): what `scanMove`, `dispatchBlock` and
`classify` answer, case by case. The equations take the window as it was read, so that they speak of a tainted run
too. -/

namespace Sys2Proof.Proofs

open Sys2Proof.Machine Sys2Proof.Laws

/-! ## Classifying a window (R208) -/

theorem classify_eq_ascii_iff (w : List Byte) : classify w = .ascii ↔ w = typeAscii := by
  unfold classify
  split_ifs <;> simp_all

theorem classify_eq_binary_iff (w : List Byte) : classify w = .binary ↔ w = typeBin := by
  have hne : typeAscii ≠ typeBin := by decide
  unfold classify
  split_ifs <;> simp_all

theorem classify_eq_basic_iff (w : List Byte) : classify w = .basic ↔ w = typeBasic := by
  have hascii : typeAscii ≠ typeBasic := by decide
  have hbin : typeBin ≠ typeBasic := by decide
  unfold classify
  split_ifs <;> simp_all

theorem classify_eq_unknown_iff (w : List Byte) :
    classify w = .unknown ↔ classify w ≠ .ascii ∧ classify w ≠ .binary ∧ classify w ≠ .basic := by
  cases classify w <;> simp

/-- Settles O32: each type marker is one byte ten times over. -/
theorem classifyByTypeMarker : Obligations.ClassifyByTypeMarker := by
  intro w hlen
  have all_iff (b : Byte) : w = List.replicate 10 b ↔ ∀ x ∈ w, x = b :=
    List.eq_replicate_iff.trans (and_iff_right hlen)
  have hascii := (classify_eq_ascii_iff w).trans (all_iff 0xEA)
  have hbinary := (classify_eq_binary_iff w).trans (all_iff 0xD0)
  have hbasic := (classify_eq_basic_iff w).trans (all_iff 0xD3)
  exact ⟨hascii, hbinary, hbasic, (classify_eq_unknown_iff w).trans
    (and_congr (not_congr hascii) (and_congr (not_congr hbinary) (not_congr hbasic)))⟩

/-! ## One pass of the scan (R205, R206) -/

theorem step_scanning {s : State} (hturn : s.tpsmTurn) (hst : s.st = .scanning) : step s = .next (scanMove s) := by
  rw [step_eq_outcome, fetch_tpsm hturn, tpsmMove, hst]
  rfl

theorem scanMove_short {s : State} (h : bytesLeft s < 8) : scanMove s = { s with st := .done } := if_pos h

theorem scanMove_of_window {s u : State} {bs : List Byte} (h : 8 ≤ bytesLeft s)
    (hwin : casWindow 8 s.pos.toNat s = (bs, u)) :
    scanMove s = if bs = syncMarker then dispatchBlock u else { u with pos := u.pos + 1 } := by
  rw [scanMove, if_neg (Nat.not_lt.mpr h), hwin]

/-! ## The block behind a marker (R206 to R209) -/

/-- R31: skipping a marker that is there leaves eight bytes fewer. -/
theorem bytesLeft_skip_marker {s : State} (h : 8 ≤ bytesLeft s) :
    (s.pos + 8).toNat = s.pos.toNat + 8 ∧ bytesLeft { s with pos := s.pos + 8 } = bytesLeft s - 8 := by
  have hpos : (s.pos + 8).toNat = s.pos.toNat + 8 := by
    rw [bytesLeft] at h
    exact pos_add_toNat (n := 8) (by change s.pos.toNat + 8 ≤ _; omega)
  exact ⟨hpos, by rw [bytesLeft, bytesLeft, hpos, Nat.sub_add_eq]⟩

/-- R207: fewer than 10 bytes behind the marker. -/
theorem dispatchBlock_short {s : State} (h : 8 ≤ bytesLeft s) (hshort : bytesLeft s < 18) :
    dispatchBlock s = raiseError .truncatedBlock (some (.marker s.pos)) { s with pos := s.pos + 8 } := by
  obtain ⟨-, hleft⟩ := bytesLeft_skip_marker h
  unfold dispatchBlock
  dsimp only
  rw [if_pos (by omega), BitVec.add_sub_cancel]

theorem dispatchBlock_of_window {s u : State} {bs : List Byte} (h : 18 ≤ bytesLeft s)
    (hwin : casWindow 10 (s.pos + 8).toNat { s with pos := s.pos + 8 } = (bs, u)) :
    dispatchBlock s = { recordMode (classify bs) u with
      st := .dispatching, cur := classify bs, stage := .silence, further := false } := by
  obtain ⟨-, hleft⟩ := bytesLeft_skip_marker (s := s) (by omega)
  unfold dispatchBlock
  dsimp only
  rw [if_neg (by omega), hwin]

/-- Whether the block is dispatched or truncated, its marker is consumed and nothing is issued. -/
theorem dispatchBlock_consumes_marker (s : State) :
    (dispatchBlock s).pos = s.pos + 8 ∧ (dispatchBlock s).trace = s.trace := by
  unfold dispatchBlock
  dsimp only
  split
  next => exact ⟨rfl, rfl⟩
  next => simp

/-! ## The scan of an untainted run -/

theorem scanMove_marker {s : State} (htaint : s.casTainted = false) (h : 8 ≤ bytesLeft s)
    (hsync : casBytes s s.pos.toNat 8 = syncMarker) : scanMove s = dispatchBlock s := by
  rw [scanMove_of_window h (casWindow_untainted htaint _ _), if_pos hsync]

/-- Settles O29. -/
theorem scanMoves : Obligations.ScanMoves := by
  intro s hturn hst htaint
  rw [step_scanning hturn hst]
  refine ⟨fun hshort => ?_, fun hleft hsync => ?_, fun hleft hsync => ?_⟩
  · rw [scanMove_short hshort]
  · rw [scanMove_of_window hleft (casWindow_untainted htaint _ _), if_neg hsync]
  · obtain ⟨hpos, htrace⟩ := dispatchBlock_consumes_marker s
    obtain ⟨hout, hwp⟩ := leavesSamples_dispatchBlock s
    exact ⟨_, congrArg _ (scanMove_marker htaint hleft hsync), hpos, htrace, hout, hwp⟩

/-- Settles O30. -/
theorem truncatedBlockEndsRun : Obligations.TruncatedBlockEndsRun := by
  intro s hturn hst htaint hleft hshort hsync
  rw [step_scanning hturn hst, scanMove_marker htaint hleft hsync, dispatchBlock_short hleft hshort, raiseError,
    ← hturn.2]

/-- Settles O31. -/
theorem markerDispatchesBlock : Obligations.MarkerDispatchesBlock := by
  intro s hturn hst htaint hleft hsync
  have hmarker : 8 ≤ bytesLeft s := Nat.le_trans (by decide) hleft
  have hwin : casWindow 10 (s.pos + 8).toNat { s with pos := s.pos + 8 } =
      (casBytes s (s.pos.toNat + 8) 10, { s with pos := s.pos + 8 }) := by
    rw [casWindow_untainted (s := { s with pos := s.pos + 8 }) htaint, (bytesLeft_skip_marker hmarker).1]
    rfl
  rw [step_scanning hturn hst, scanMove_marker htaint hmarker hsync, dispatchBlock_of_window hleft hwin, recordMode]
  dsimp only
  cases s.status.modeValid <;> rfl

end Sys2Proof.Proofs
end

section
/-! The policies while DISPATCHING (R210 to R215) and the end of a run (R216): one equation for each move of
`policyMove`, and the words the TPSM issues. -/

namespace Sys2Proof.Proofs

open Sys2Proof.Machine Sys2Proof.Laws

/-! ## What follows a word -/

/-- Two continuations that agree on what an instruction leads to. -/
theorem thenDo_congr {o : Host.Outcome State Fault Refusal} {k l : State → State}
    (h : ∀ u, o = .next u → k u = l u) : thenDo o k = thenDo o l := by
  cases o with
  | next u => exact congrArg Host.Outcome.next (h u rfl)
  | fault r => rfl
  | refused r => rfl

theorem tpsmThen_congr {k l : State → State} {u : State} (h : k u = l u) : tpsmThen k u = tpsmThen l u := by
  rw [tpsmThen, tpsmThen, h]

/-- R201: a BYTE the TPSM issues. What follows it may read the cursor, the stream and `eof` as they were before it. -/
theorem outcome_issue_byte (b : Byte) (s : State) {after k : State → State}
    (h : ∀ u, SameInputs { s with trace := s.trace ++ [encode (.byte b)] } u → after u = k u) :
    outcome (issueFromTpsm (.byte b) s after) =
      thenDo (exec (.byte b) { s with trace := s.trace ++ [encode (.byte b)] }) (tpsmThen k) := by
  rw [outcome_issueFromTpsm rfl rfl]
  exact thenDo_congr fun u hu => tpsmThen_congr (h u (exec_micro_sameInputs rfl hu))

/-! ## The silence before a chunk (R182, R203) -/

theorem leadSamples_le {w : Word} (h : w.toInt ≤ 6213) : leadSamples w ≤ 6213 * 43200 := by
  unfold leadSamples
  split
  next => exact Nat.mul_le_mul_right _ (by omega)
  next => decide

/-- R93, R182: the longest silence, 6213 seconds, fits the 28 bits of `ARG`. -/
theorem chunkSilence_wellFormed {s : State} (h : s.leadinS.toInt ≤ 6213) :
    WellFormed (.sil (chunkSilence s)) = true := by
  have hle : chunkSilence s ≤ 6213 * 43200 := by
    unfold chunkSilence
    split
    next => decide
    next =>
      split
      next => decide
      all_goals exact leadSamples_le h
  exact decide_eq_true (hle.trans_lt (by decide))

theorem chunkSilence_further {s : State} (h : s.further = true) : chunkSilence s = 43200 := if_pos h

theorem chunkSilence_unknown {s : State} (hf : s.further = false) (hcur : s.cur = .unknown) :
    chunkSilence s = 86400 := by
  rw [chunkSilence, hf, hcur]
  rfl

theorem chunkSilence_first {s : State} (hf : s.further = false) (hcur : s.cur ≠ .unknown) :
    chunkSilence s = leadSamples s.leadinS := by
  rw [chunkSilence, hf]
  cases h : s.cur with
  | unknown => exact absurd h hcur
  | _ => rfl

theorem policyMove_silence {s : State} (hstage : s.stage = .silence) :
    policyMove s = issueFromTpsm (.sil (chunkSilence s)) s fun t => { t with stage := .header } := by
  rw [policyMove, hstage]

/-- Settles O33: the move at this place of the policy issues the SIL of `chunkSilence`, whose four cases are those of
the statement. -/
theorem silenceBeforeChunk : Obligations.SilenceBeforeChunk := by
  intro s n hturn hst hstage hmax hfurther hunknown hzero hlead
  have hn : chunkSilence s = n := by
    cases hf : s.further with
    | true => rw [chunkSilence_further hf, hfurther hf]
    | false =>
      by_cases hcur : s.cur = .unknown
      · rw [chunkSilence_unknown hf hcur, hunknown hf hcur]
      · rw [chunkSilence_first hf hcur, leadSamples]
        split
        next hpos =>
          have hprod := hlead hf hcur hpos
          change s.leadinS.toInt.toNat * 43200 = n
          omega
        next hneg => exact (hzero hf hcur (Int.not_lt.mp hneg)).symm
  rw [step_dispatching hturn hst, policyMove_silence hstage, outcome_issueFromTpsm (chunkSilence_wellFormed hmax) rfl,
    hn]

/-! ## The per-byte phase of `Data()` (R210, R211) -/

theorem policyMove_bytes {s : State} (hstage : s.stage = .bytes) : policyMove s = bytesMove s := by
  rw [policyMove, hstage]

theorem bytesMove_short {s : State} (h : bytesLeft s < 8) :
    bytesMove s = .settled (.next { s with stage := .tail s.pos }) :=
  if_neg (Nat.not_le.mpr h)

theorem bytesMove_of_window {s u v : State} {bs : List Byte} {b : Byte} (h : 8 ≤ bytesLeft s)
    (hwin : casWindow 8 s.pos.toNat s = (bs, u)) (hread : casRead s.pos.toNat u = (b, v)) :
    bytesMove s = if bs = syncMarker then .settled (.next { u with stage := .chunkEnd })
      else issueFromTpsm (.byte b) v afterByte := by
  rw [bytesMove, if_pos h, hwin]
  dsimp only
  rw [hread]

/-- R211: `eof` is set at the EOF byte and never cleared by the test. -/
theorem noteEof_eq (b : Byte) (s : State) : noteEof b s = { s with eof := s.eof || decide (b = 0x1A) } := by
  rw [noteEof, show eofByte = 0x1A from rfl]
  by_cases h : b = 0x1A
  · rw [if_pos h, decide_eq_true h, Bool.or_true]
  · rw [if_neg h, decide_eq_false h, Bool.or_false]

theorem afterByte_untainted {s : State} (htaint : s.casTainted = false) :
    afterByte s = { s with eof := s.eof || decide (casByte s s.pos.toNat = 0x1A), pos := s.pos + 1 } := by
  rw [afterByte, casRead_untainted htaint, noteEof_eq]

/-- R62, R75: a micro-operation leaves the stream the block reads as it is. -/
theorem casByte_of_sameInputs {s u : State} {ws : List Word} (h : SameInputs { s with trace := ws } u) (a : Nat) :
    casByte u a = casByte s a := by
  rw [casByte, casByte, h.cas, h.casEpoch]

/-- Settles O35. -/
theorem dataPerBytePhase : Obligations.DataPerBytePhase := by
  intro s hturn hst hstage htaint
  have hwin := casWindow_untainted htaint 8 s.pos.toNat
  have hread := casRead_untainted htaint s.pos.toNat
  rw [step_dispatching hturn hst, policyMove_bytes hstage]
  refine ⟨fun hshort => ?_, fun hleft hsync => ?_, fun hleft hsync => ?_⟩
  · rw [bytesMove_short hshort, outcome]
  · rw [bytesMove_of_window hleft hwin hread, if_pos hsync, outcome]
  · rw [bytesMove_of_window hleft hwin hread, if_neg hsync]
    refine outcome_issue_byte _ s fun u hu => ?_
    rw [afterByte_untainted (hu.casTainted.trans htaint), casByte_of_sameInputs hu, hu.pos, hu.eof]

/-! ## The tail phase of `Data()` (R210, R211) -/

theorem policyMove_tail {s : State} {t0 : Word} (hstage : s.stage = .tail t0) : policyMove s = tailMove t0 s := by
  rw [policyMove, hstage]

theorem tailMove_byte {s u : State} {b : Byte} (t0 : Word) (h : s.pos.toNat < s.casLen.toNat)
    (hread : casRead s.pos.toNat s = (b, u)) :
    tailMove t0 s = issueFromTpsm (.byte b) u fun t => { t with pos := t.pos + 1 } := by
  rw [tailMove, if_pos h, hread]

theorem tailMove_end {s u : State} {t0 : Word} {b : Byte} (h : s.casLen.toNat ≤ s.pos.toNat)
    (ht0 : t0.toNat < s.casLen.toNat) (hread : casRead t0.toNat s = (b, u)) :
    tailMove t0 s = .settled (.next { noteEof b u with stage := .chunkEnd }) := by
  rw [tailMove, if_neg (Nat.not_lt.mpr h), if_pos (Nat.sub_pos_of_lt ht0), hread]

theorem tailMove_end_empty {s : State} {t0 : Word} (h : s.casLen.toNat ≤ s.pos.toNat)
    (ht0 : s.casLen.toNat ≤ t0.toNat) : tailMove t0 s = .settled (.next { s with stage := .chunkEnd }) := by
  rw [tailMove, if_neg (Nat.not_lt.mpr h), Nat.sub_eq_zero_of_le ht0, if_neg (Nat.lt_irrefl 0)]

/-- Settles O36. -/
theorem dataTailPhase : Obligations.DataTailPhase := by
  intro s t0 hturn hst hstage htaint
  rw [step_dispatching hturn hst, policyMove_tail hstage]
  refine ⟨fun hmore => ?_, fun hend => ?_⟩
  · rw [tailMove_byte t0 hmore (casRead_untainted htaint _)]
    exact outcome_issue_byte _ s fun u hu => by rw [hu.pos]
  · rcases Nat.lt_or_ge t0.toNat s.casLen.toNat with htail | hempty
    · rw [tailMove_end hend htail (casRead_untainted htaint _), noteEof_eq, decide_eq_true htail, Bool.true_and, outcome]
    · rw [tailMove_end_empty hend hempty, decide_eq_false (Nat.not_lt.mpr hempty), Bool.false_and, Bool.or_false,
        outcome]

/-! ## After a chunk (R212 to R215) -/

theorem policyMove_chunkEnd {s : State} (hstage : s.stage = .chunkEnd) :
    policyMove s = .settled (.next (afterChunk s)) := by
  rw [policyMove, hstage]

theorem afterChunk_unknown {s : State} (h : s.cur = .unknown) : afterChunk s = backToScanning s := by
  rw [afterChunk, h]

theorem afterChunk_ascii {s : State} (h : s.cur = .ascii) :
    afterChunk s =
      if s.eof = false ∧ s.pos.toNat < s.casLen.toNat then nextChunk (s.pos + 8) s else backToScanning s := by
  rw [afterChunk, h]

theorem afterChunk_binary_basic {s : State} (h : s.cur = .binary ∨ s.cur = .basic) :
    afterChunk s = afterBinBasicChunk s := by
  rcases h with h | h <;> rw [afterChunk, h]

/-- R214: the skip behind a first chunk, clamped to the stream. -/
def clampedSkip (s : State) : Word := BitVec.ofNat 32 (min (s.pos.toNat + 8) s.casLen.toNat)

theorem clampedSkip_toNat (s : State) : (clampedSkip s).toNat = min (s.pos.toNat + 8) s.casLen.toNat := by
  rw [clampedSkip, BitVec.toNat_ofNat]
  exact Nat.mod_eq_of_lt (Nat.lt_of_le_of_lt (Nat.min_le_right _ _) s.casLen.isLt)

theorem afterBinBasicChunk_first {s : State} (h : s.further = false) :
    afterBinBasicChunk s = nextChunk (clampedSkip s) s := by
  rw [afterBinBasicChunk, h]
  rfl

theorem afterBinBasicChunk_second {s : State} (h : s.further = true) : afterBinBasicChunk s = backToScanning s :=
  if_pos h

/-- Settles O37, policy by policy. -/
theorem policyAfterChunk : Obligations.PolicyAfterChunk := by
  intro s hturn hst hstage
  rw [step_dispatching hturn hst, policyMove_chunkEnd hstage, outcome]
  refine ⟨fun hcur => ?unknown, fun hcur heof hmore => ?asciiOn, fun hcur hstop => ?asciiEnd,
    fun hcur hf => ?second, fun hcur hf => ?first⟩
  case unknown => rw [afterChunk_unknown hcur, backToScanning]
  case asciiOn => rw [afterChunk_ascii hcur, if_pos ⟨heof, hmore⟩, nextChunk]
  case asciiEnd =>
    have hnot : ¬ (s.eof = false ∧ s.pos.toNat < s.casLen.toNat) := fun ⟨heof, hmore⟩ =>
      hstop.elim (fun h => by rw [heof] at h; cases h) (Nat.not_le.mpr hmore)
    rw [afterChunk_ascii hcur, if_neg hnot, backToScanning]
  case second => rw [afterChunk_binary_basic hcur, afterBinBasicChunk_second hf, backToScanning]
  case first =>
    exact ⟨clampedSkip s, clampedSkip_toNat s, by
      rw [afterChunk_binary_basic hcur, afterBinBasicChunk_first hf, nextChunk]⟩

/-! ## The end of a run (R216, R262) -/

theorem tpsmMove_done {s : State} (hst : s.st = .done) : tpsmMove s = issueFromTpsm .fin s endRun := by
  rw [tpsmMove, hst]

/-- R216, R240: FIN raises no error, so the run ends behind it. -/
theorem outcome_issue_fin {s : State} (hst : s.st = .done) :
    outcome (issueFromTpsm .fin s endRun) = .next (endRun { s with
      trace := s.trace ++ [encode .fin]
      out := writeHeader (headerFields (s.wp - 44)) s.out
      outLen := s.wp }) := by
  rw [outcome_issueFromTpsm rfl rfl, exec, execFin, thenDo, tpsmThen]
  exact congrArg _ (if_neg (by simp [hst]))

/-- Settles O38. -/
theorem doneIssuesFin : Obligations.DoneIssuesFin := by
  intro s hturn hst
  rw [step_eq_outcome, fetch_tpsm hturn, tpsmMove_done hst, outcome_issue_fin hst]
  rfl

end Sys2Proof.Proofs
end

section
/-! What one move of the TPSM comes to (R200 to R216), said once for the statements about whole runs: it issues no word,
or issues one whose samples fit, or ends the run. The case distinction is about the cursor, the place in the policy, the
trace and the write pointer; it holds of a tainted run too. -/

namespace Sys2Proof.Proofs

open Sys2Proof.Machine Sys2Proof.Laws

/-! ## A word's samples, whatever `OUT_CAP` -/

/-- R122, R126: the emissions all fit, or OUTPUT_OVERFLOW is raised in front of one. -/
theorem emitAll_outcome (es : List Emission) (fin : Transient) (s : State) :
    (∃ out wp, wp.toNat = s.wp.toNat + es.length ∧ emitAll es fin s = { s with out := out, wp := wp, regs := fin }) ∨
    ∃ x out wp regs, emitAll es fin s = raiseError .outputOverflow x { s with out := out, wp := wp, regs := regs } := by
  induction es generalizing s with
  | nil => exact .inl ⟨s.out, s.wp, rfl, emitAll_nil fin s⟩
  | cons e es ih =>
    rcases Nat.lt_or_ge s.wp.toNat s.cfg.outCap.toNat with room | full
    · rw [emitAll_cons_of_room room]
      obtain ⟨out, wp, hwp, hemit⟩ | ⟨x, out, wp, regs, hemit⟩ :=
        ih { s with out := s.out.write s.wp.toNat e.value, wp := s.wp + 1 }
      · exact .inl ⟨out, wp, by rw [hwp, wp_succ_toNat room, List.length_cons]; omega, hemit⟩
      · exact .inr ⟨x, out, wp, regs, hemit⟩
    · exact .inr ⟨_, s.out, s.wp, e.regs, emitAll_cons_of_full full e es fin⟩

/-- R201, R304: a word the TPSM issues, other than FIN: its samples are stored and the TPSM goes on, or the run ends in
OUTPUT_OVERFLOW. -/
theorem issue_cases {i : Instr} {f : Nat} {s t : State} {after : State → State} (hf : baudFactor s.baud = some f)
    (hwf : WellFormed i = true) (hm : i.isMicroOp = true) (hfin : i ≠ .fin) (hst : s.st ≠ .idle)
    (h : outcome (issueFromTpsm i s after) = .next t) :
    (∃ out wp regs, wp.toNat = s.wp.toNat + sampleCount f i ∧
      t = after { s with trace := s.trace ++ [encode i], out := out, wp := wp, regs := regs }) ∨
    ∃ x out wp regs, t = raiseError .outputOverflow x
      { s with trace := s.trace ++ [encode i], out := out, wp := wp, regs := regs } := by
  obtain ⟨es, r, hes, hexec⟩ := exec_emits (s := { s with trace := s.trace ++ [encode i] }) hf i hm hfin
  have hlen : es.length = sampleCount f i := by
    rw [← samplesOf_length, hes, microSamples_length (baudFactor_one_or_two hf)]
  rw [outcome_issueFromTpsm hwf hm, hexec] at h
  cases h
  obtain ⟨out, wp, hwp, hemit⟩ | ⟨x, out, wp, regs, hemit⟩ :=
    emitAll_outcome es r { s with trace := s.trace ++ [encode i] }
  · exact .inl ⟨out, wp, r, hlen ▸ hwp, by rw [hemit]; exact if_neg hst⟩
  · exact .inr ⟨x, out, wp, regs, by rw [hemit]; exact if_pos rfl⟩

/-! ## The cases -/

/-- The words of a policy (R210 to R214), each with the cursor and the line of the policy behind it. -/
inductive WordLine (s : State) : Instr → Word → Stage → Prop
  | silence (line : s.stage = .silence) : WordLine s (.sil (chunkSilence s)) s.pos .header
  | header (line : s.stage = .header) : WordLine s (.hdr (chunkHeader s)) s.pos .bytes
  | byte (b : Byte) (line : s.stage = .bytes) (left : 8 ≤ bytesLeft s) : WordLine s (.byte b) (s.pos + 1) .bytes
  | tailByte (b : Byte) (t0 : Word) (line : s.stage = .tail t0) (more : s.pos.toNat < s.casLen.toNat) :
      WordLine s (.byte b) (s.pos + 1) (.tail t0)

/-- The moves that issue no word and raise no error, with the state, the cursor, the line of the policy and the mark of a
further chunk they lead to. -/
inductive SilentMove (s : State) : TpsmState → Word → Stage → Bool → Prop
  | scanEnd (state : s.st = .scanning) : SilentMove s .done s.pos s.stage s.further
  | scanOn (state : s.st = .scanning) (left : 8 ≤ bytesLeft s) : SilentMove s s.st (s.pos + 1) s.stage s.further
  | dispatch (state : s.st = .scanning) (left : 8 ≤ bytesLeft s) :
      SilentMove s .dispatching (s.pos + 8) .silence false
  | tailBegin (state : s.st = .dispatching) (line : s.stage = .bytes) :
      SilentMove s s.st s.pos (.tail s.pos) s.further
  | marker (state : s.st = .dispatching) (line : s.stage = .bytes) (left : 8 ≤ bytesLeft s) :
      SilentMove s s.st s.pos .chunkEnd s.further
  | tailEnd (t0 : Word) (state : s.st = .dispatching) (line : s.stage = .tail t0)
      (stop : s.casLen.toNat ≤ s.pos.toNat) : SilentMove s s.st s.pos .chunkEnd s.further
  | complete (state : s.st = .dispatching) (line : s.stage = .chunkEnd) :
      SilentMove s .scanning s.pos s.stage s.further
  | nextAscii (state : s.st = .dispatching) (line : s.stage = .chunkEnd) (more : s.pos.toNat < s.casLen.toNat) :
      SilentMove s s.st (s.pos + 8) .silence true
  | second (state : s.st = .dispatching) (line : s.stage = .chunkEnd) (first : s.further = false) :
      SilentMove s s.st (clampedSkip s) .silence true

/-- What one move of a TPSM run at baud factor `f` comes to. -/
inductive Move (f : Nat) (s : State) : State → Prop
  | silent {st : TpsmState} {p : Word} {g : Stage} {b : Bool} (move : SilentMove s st p g b) (mode : Mode)
      (modeValid : Bool) (cur : Mode) (eof : Bool) (n : Nat) : Move f s { s with
        status := { s.status with mode := mode, modeValid := modeValid }
        st := st, cur := cur, pos := p, eof := eof, stage := g, further := b, draws := n }
  | truncated (left : 8 ≤ bytesLeft s) (x : Option ErrorInfo) (n : Nat) :
      Move f s (raiseError .truncatedBlock x { s with pos := s.pos + 8, draws := n })
  | word {i : Instr} {p : Word} {g : Stage} (state : s.st = .dispatching) (line : WordLine s i p g) (out : Memory)
      (wp : Word) (regs : Transient) (eof : Bool) (n : Nat) (samples : wp.toNat = s.wp.toNat + sampleCount f i) :
      Move f s { s with
        trace := s.trace ++ [encode i], out := out, wp := wp, regs := regs, pos := p, stage := g, eof := eof, draws := n }
  | overflow (i : Instr) (x : Option ErrorInfo) (out : Memory) (wp : Word) (regs : Transient) (n : Nat) :
      Move f s (raiseError .outputOverflow x { s with
        trace := s.trace ++ [encode i], out := out, wp := wp, regs := regs, draws := n })
  | finish (out : Memory) :
      Move f s (endRun { s with trace := s.trace ++ [encode .fin], out := out, outLen := s.wp })

/-! ## Every move is one of them -/

theorem configOk_leadinS {s : State} (h : configOk s = true) : s.leadinS.toInt ≤ 6213 := by
  simp only [configOk, Bool.and_eq_true, decide_eq_true_eq] at h
  exact h.1.2

/-- R93, R95, R261: with a legal configuration every word of a policy is one of a well-formed micro-operation. -/
theorem wordLine_wellFormed {s : State} {i : Instr} {p : Word} {g : Stage} (hcfg : configOk s = true)
    (line : WordLine s i p g) : WellFormed i = true ∧ i.isMicroOp = true ∧ i ≠ .fin := by
  cases line with
  | silence => exact ⟨chunkSilence_wellFormed (configOk_leadinS hcfg), rfl, nofun⟩
  | header =>
    obtain ⟨k, hk⟩ := Option.isSome_iff_exists.mp (baud_of_configOk hcfg)
    exact ⟨chunkHeader_wellFormed ((baudFactor_cases hk).imp And.left And.left), rfl, nofun⟩
  | byte => exact ⟨rfl, rfl, nofun⟩
  | tailByte => exact ⟨rfl, rfl, nofun⟩

section
variable {f : Nat} {s t : State}

/-- A word of a policy, where what follows it moves the cursor and the line as `WordLine` says. -/
theorem move_of_word (hcfg : configOk s = true) (hf : baudFactor s.baud = some f) (hst : s.st = .dispatching)
    {i : Instr} {p : Word} {g : Stage} (line : WordLine s i p g) (n : Nat) {after : State → State}
    (hafter : ∀ u : State, u.pos = s.pos → u.stage = s.stage →
      ∃ eof n, after u = { u with pos := p, stage := g, eof := eof, draws := n })
    (h : outcome (issueFromTpsm i { s with draws := n } after) = .next t) : Move f s t := by
  obtain ⟨hwf, hm, hfin⟩ := wordLine_wellFormed hcfg line
  obtain ⟨out, wp, regs, hwp, rfl⟩ | ⟨x, out, wp, regs, rfl⟩ :=
    issue_cases (s := { s with draws := n }) hf hwf hm hfin (by simp [hst]) h
  · obtain ⟨eof, m, hu⟩ := hafter
      { s with draws := n, trace := s.trace ++ [encode i], out := out, wp := wp, regs := regs } rfl rfl
    exact hu ▸ .word hst line out wp regs eof m hwp
  · exact .overflow i x out wp regs n

theorem recordMode_state (m : Mode) (s : State) : 
    ∃ mode valid, recordMode m s = { s with status := { s.status with mode := mode, modeValid := valid } } := by
  unfold recordMode
  split
  next => exact ⟨s.status.mode, s.status.modeValid, rfl⟩
  next => exact ⟨m, true, rfl⟩

theorem move_scanMove (hst : s.st = .scanning) : Move f s (scanMove s) := by
  rcases Nat.lt_or_ge (bytesLeft s) 8 with hshort | hleft
  · rw [scanMove_short hshort]
    exact .silent (.scanEnd hst) s.status.mode s.status.modeValid s.cur s.eof s.draws
  · obtain ⟨bs, k, hwin, -⟩ := casWindow_state 8 s.pos.toNat s
    rw [scanMove_of_window hleft hwin]
    split
    next =>
      rcases Nat.lt_or_ge (bytesLeft s) 18 with htrunc | hblock
      · rw [dispatchBlock_short (s := { s with draws := k }) hleft htrunc]
        exact .truncated hleft _ k
      · obtain ⟨cs, n, hread, -⟩ := casWindow_state 10 (s.pos + 8).toNat { s with draws := k, pos := s.pos + 8 }
        obtain ⟨mode, valid, hmode⟩ := recordMode_state (classify cs) { s with draws := n, pos := s.pos + 8 }
        rw [dispatchBlock_of_window (s := { s with draws := k }) hblock hread, hmode]
        exact .silent (.dispatch hst hleft) mode valid (classify cs) s.eof n
    next => exact .silent (.scanOn hst hleft) s.status.mode s.status.modeValid s.cur s.eof k

theorem move_bytesMove (hcfg : configOk s = true) (hf : baudFactor s.baud = some f) (hst : s.st = .dispatching)
    (hg : s.stage = .bytes) (h : outcome (bytesMove s) = .next t) : Move f s t := by
  rcases Nat.lt_or_ge (bytesLeft s) 8 with hshort | hleft
  · rw [bytesMove_short hshort] at h
    cases h
    exact .silent (.tailBegin hst hg) s.status.mode s.status.modeValid s.cur s.eof s.draws
  · obtain ⟨bs, k, hwin, -⟩ := casWindow_state 8 s.pos.toNat s
    obtain ⟨b, n, hread⟩ := casRead_state s.pos.toNat { s with draws := k }
    rw [bytesMove_of_window hleft hwin hread] at h
    split at h
    next =>
      cases h
      exact .silent (.marker hst hg hleft) s.status.mode s.status.modeValid s.cur s.eof k
    next =>
      refine move_of_word hcfg hf hst (.byte b hg hleft) n (fun u hpos hstage => ?_) h
      obtain ⟨eof, m, hafter⟩ := afterByte_state u
      exact ⟨eof, m, by rw [hafter, hpos, hstage, hg]⟩

theorem move_tailMove (hcfg : configOk s = true) (hf : baudFactor s.baud = some f) (hst : s.st = .dispatching)
    {t0 : Word} (hg : s.stage = .tail t0) (h : outcome (tailMove t0 s) = .next t) : Move f s t := by
  rcases Nat.lt_or_ge s.pos.toNat s.casLen.toNat with hmore | hend
  · obtain ⟨b, n, hread⟩ := casRead_state s.pos.toNat s
    rw [tailMove_byte t0 hmore hread] at h
    refine move_of_word hcfg hf hst (.tailByte b t0 hg hmore) n (fun u hpos hstage => ?_) h
    exact ⟨u.eof, u.draws, by rw [hpos, ← hg, ← hstage]⟩
  · rcases Nat.lt_or_ge t0.toNat s.casLen.toNat with htail | hempty
    · obtain ⟨b, n, hread⟩ := casRead_state t0.toNat s
      rw [tailMove_end hend htail hread, noteEof_eq] at h
      cases h
      exact .silent (.tailEnd t0 hst hg hend) s.status.mode s.status.modeValid s.cur _ n
    · rw [tailMove_end_empty hend hempty] at h
      cases h
      exact .silent (.tailEnd t0 hst hg hend) s.status.mode s.status.modeValid s.cur s.eof s.draws

theorem move_backToScanning (hst : s.st = .dispatching) (hg : s.stage = .chunkEnd) : Move f s (backToScanning s) :=
  .silent (.complete hst hg) s.status.mode s.status.modeValid s.cur s.eof s.draws

theorem move_afterBinBasicChunk (hst : s.st = .dispatching) (hg : s.stage = .chunkEnd) :
    Move f s (afterBinBasicChunk s) := by
  cases hfurther : s.further with
  | false =>
    rw [afterBinBasicChunk_first hfurther]
    exact .silent (.second hst hg hfurther) s.status.mode s.status.modeValid s.cur s.eof s.draws
  | true =>
    rw [afterBinBasicChunk_second hfurther]
    exact move_backToScanning hst hg

theorem move_afterChunk (hst : s.st = .dispatching) (hg : s.stage = .chunkEnd) : Move f s (afterChunk s) := by
  cases hcur : s.cur with
  | unknown => exact afterChunk_unknown hcur ▸ move_backToScanning hst hg
  | ascii =>
    rw [afterChunk_ascii hcur]
    split
    next hmore => exact .silent (.nextAscii hst hg hmore.2) s.status.mode s.status.modeValid s.cur s.eof s.draws
    next => exact move_backToScanning hst hg
  | binary => exact afterChunk_binary_basic (.inl hcur) ▸ move_afterBinBasicChunk hst hg
  | basic => exact afterChunk_binary_basic (.inr hcur) ▸ move_afterBinBasicChunk hst hg

theorem move_policyMove (hcfg : configOk s = true) (hf : baudFactor s.baud = some f) (hst : s.st = .dispatching)
    (h : outcome (policyMove s) = .next t) : Move f s t := by
  cases hg : s.stage with
  | silence =>
    rw [policyMove_silence hg] at h
    exact move_of_word hcfg hf hst (.silence hg) s.draws (fun u hpos _ => ⟨u.eof, u.draws, by rw [← hpos]⟩) h
  | header =>
    rw [policyMove_header hg] at h
    exact move_of_word hcfg hf hst (.header hg) s.draws (fun u hpos _ => ⟨false, u.draws, by rw [← hpos]⟩) h
  | bytes => exact move_bytesMove hcfg hf hst hg (policyMove_bytes hg ▸ h)
  | tail t0 => exact move_tailMove hcfg hf hst hg (policyMove_tail hg ▸ h)
  | chunkEnd =>
    rw [policyMove_chunkEnd hg] at h
    cases h
    exact move_afterChunk hst hg

/-- R200: one move of a TPSM run that is in progress. -/
theorem move_tpsmMove (hcfg : configOk s = true) (hf : baudFactor s.baud = some f) (hst : s.st ≠ .idle)
    (h : outcome (tpsmMove s) = .next t) : Move f s t := by
  cases hstate : s.st with
  | idle => exact absurd hstate hst
  | scanning =>
    rw [tpsmMove, hstate] at h
    cases h
    exact move_scanMove hstate
  | dispatching =>
    rw [tpsmMove, hstate] at h
    exact move_policyMove hcfg hf hstate h
  | done =>
    rw [tpsmMove_done hstate, outcome_issue_fin hstate] at h
    cases h
    exact .finish _

end

end Sys2Proof.Proofs
end

section
/-! The cursor (R219), along every move of the TPSM. -/

namespace Sys2Proof.Proofs

open Sys2Proof.Machine Sys2Proof.Laws

/-! ## A turn of the block in a TPSM run -/

theorem blockMove_tpsm {s : State} (h : s.prog = none) : blockMove s = tpsmMove s := by
  rw [blockMove, h]

theorem move_blockTurn {f : Nat} {s t : State} (hblock : s.blockTurn) (hprog : s.prog = none)
    (hcfg : configOk s = true) (hf : baudFactor s.baud = some f) (hst : s.st ≠ .idle) (h : step s = .next t) :
    Move f { s with schedule := s.schedule.tail } t := by
  rw [step_blockTurn hblock, blockMove_tpsm (s := { s with schedule := s.schedule.tail }) hprog] at h
  exact move_tpsmMove (s := { s with schedule := s.schedule.tail }) hcfg hf hst h

/-! ## The cursor stays inside the stream -/

/-- R217, R219: the cursor is inside the stream, and where a chunk has ended it stands at the stream's end or has a
marker's 8 bytes before it. -/
structure CursorOk (len p : Word) (st : TpsmState) (g : Stage) : Prop where
  within : p.toNat ≤ len.toNat
  chunkEnds : st = .dispatching → g = .chunkEnd → p = len ∨ 8 ≤ len.toNat - p.toNat

theorem cursorOk_of_inv {s : State} (h : s.Inv) (hst : s.st ≠ .idle) : CursorOk s.casLen s.pos s.st s.stage :=
  ⟨h.cursor hst, fun hd hg => (h.chunkEnds hd hg).imp_right And.left⟩

theorem pos_succ_toNat {s : State} (h : s.pos.toNat < s.casLen.toNat) : (s.pos + 1).toNat = s.pos.toNat + 1 :=
  pos_add_toNat (n := 1) h

theorem lt_casLen_of_left {s : State} (h : 8 ≤ bytesLeft s) : s.pos.toNat < s.casLen.toNat := by
  rw [bytesLeft] at h
  omega

/-- R213, R217: where a chunk of an ASCII block ends before the stream does, a marker's 8 bytes are left to skip. -/
theorem CursorOk.left_of_chunkEnd {s : State} (hc : CursorOk s.casLen s.pos s.st s.stage) (hst : s.st = .dispatching)
    (hg : s.stage = .chunkEnd) (hmore : s.pos.toNat < s.casLen.toNat) : 8 ≤ bytesLeft s :=
  (hc.chunkEnds hst hg).resolve_left fun hend => by simp [hend] at hmore

theorem silentMove_cursor {s : State} {st : TpsmState} {p : Word} {g : Stage} {b : Bool}
    (hc : CursorOk s.casLen s.pos s.st s.stage) (h : SilentMove s st p g b) :
    s.pos.toNat ≤ p.toNat ∧ CursorOk s.casLen p st g := by
  have hin := hc.within
  cases h with
  | scanEnd => exact ⟨le_rfl, hin, nofun⟩
  | scanOn state left =>
    have hpos := pos_succ_toNat (lt_casLen_of_left left)
    exact ⟨hpos ▸ Nat.le_succ _, pos_succ_le left, fun hd => by simp [state] at hd⟩
  | dispatch state left =>
    obtain ⟨hpos, -⟩ := bytesLeft_skip_marker left
    exact ⟨hpos ▸ Nat.le_add_right _ _, pos_add_le (n := 8) left, nofun⟩
  | tailBegin => exact ⟨le_rfl, hin, nofun⟩
  | marker state line left => exact ⟨le_rfl, hin, fun _ _ => .inr left⟩
  | tailEnd t0 state line stop =>
    exact ⟨le_rfl, hin, fun _ _ => .inl (BitVec.eq_of_toNat_eq (Nat.le_antisymm hin stop))⟩
  | complete => exact ⟨le_rfl, hin, nofun⟩
  | nextAscii state line more =>
    have hleft := hc.left_of_chunkEnd state line more
    obtain ⟨hpos, -⟩ := bytesLeft_skip_marker hleft
    exact ⟨hpos ▸ Nat.le_add_right _ _, pos_add_le (n := 8) hleft, nofun⟩
  | second =>
    have hskip := clampedSkip_toNat s
    exact ⟨by omega, by omega, nofun⟩

theorem wordLine_cursor {s : State} {i : Instr} {p : Word} {g : Stage} (hin : s.pos.toNat ≤ s.casLen.toNat)
    (h : WordLine s i p g) : s.pos.toNat ≤ p.toNat ∧ p.toNat ≤ s.casLen.toNat ∧ g ≠ .chunkEnd := by
  cases h with
  | silence => exact ⟨le_rfl, hin, nofun⟩
  | header => exact ⟨le_rfl, hin, nofun⟩
  | byte b line left =>
    have hpos := pos_succ_toNat (lt_casLen_of_left left)
    exact ⟨hpos ▸ Nat.le_succ _, pos_succ_le left, nofun⟩
  | tailByte b t0 line more =>
    have hpos := pos_succ_toNat more
    exact ⟨hpos ▸ Nat.le_succ _, hpos ▸ more, nofun⟩

/-- R219: a move leaves the cursor where it is or moves it up inside the stream. -/
theorem move_cursor {f : Nat} {s t : State} (hc : CursorOk s.casLen s.pos s.st s.stage) (h : Move f s t) :
    s.pos.toNat ≤ t.pos.toNat ∧ CursorOk s.casLen t.pos t.st t.stage := by
  cases h with
  | silent move => exact silentMove_cursor hc move
  | truncated left =>
    obtain ⟨hpos, -⟩ := bytesLeft_skip_marker left
    exact ⟨hpos ▸ Nat.le_add_right _ _, pos_add_le (n := 8) left, nofun⟩
  | word state line =>
    obtain ⟨hup, hin, hg⟩ := wordLine_cursor hc.within line
    exact ⟨hup, hin, fun _ => (absurd · hg)⟩
  | overflow => exact ⟨le_rfl, hc.within, nofun⟩
  | finish => exact ⟨le_rfl, hc.within, nofun⟩

/-- Settles O54. -/
theorem cursorAdvancesWithinStream : Obligations.CursorAdvancesWithinStream := by
  intro s t h hblock hst hstep
  obtain ⟨f, hf⟩ := Option.isSome_iff_exists.mp (baud_of_configOk (h.config hst))
  have hc := cursorOk_of_inv h hst
  obtain ⟨hup, hin, -⟩ := move_cursor (s := { s with schedule := s.schedule.tail }) hc
    (move_blockTurn hblock (h.oneRun hst) (h.config hst) hf hst hstep)
  exact ⟨hup, hin⟩

end Sys2Proof.Proofs
end

section
/-! A START run from rest with the host silent, as an induction over its turns, and what it gives: the bound on the words
of a run (R220), and the length of a successful one (R225). -/

namespace Sys2Proof.Proofs

open Sys2Proof.Machine Sys2Proof.Laws

/-! ## Induction over the turns of a run -/

theorem run_succ {M : Host.Core} {s t : M.State} {k : Nat} (h : M.run (k + 1) s = .next t) :
    ∃ u, M.step s = .next u ∧ M.run k u = .next t := by
  rw [Host.Core.run] at h
  split at h
  next u hu => exact ⟨u, hu, h⟩
  next => cases h
  next => cases h

theorem after_succ {s t : State} {k : Nat} (h : s.after (k + 1) = .next t) :
    ∃ u, step s = .next u ∧ u.after k = .next t :=
  run_succ (M := core) h

/-- What every turn keeps holds after any number of turns. -/
theorem after_induction {P : State → Prop} (hstep : ∀ u v, P u → step u = .next v → P v) {s t : State} {k : Nat}
    (hs : P s) (h : s.after k = .next t) : P t := by
  induction k generalizing s with
  | zero =>
    cases h
    exact hs
  | succ k ih =>
    obtain ⟨u, hu, hrest⟩ := after_succ h
    exact ih (hstep s u hs hu) hrest

/-- The host is silent and no program runs, and the configuration is legal while a run is in progress (R42, R261). -/
structure Unattended (s : State) : Prop where
  turn : s.tpsmTurn
  config : s.st ≠ .idle → configOk s = true

theorem unattended_move {f : Nat} {s t : State} (h : Unattended s) (hst : s.st ≠ .idle) (hm : Move f s t) :
    Unattended t := by
  obtain ⟨⟨noTurn, noProgram⟩, hcfg⟩ := h
  cases hm with
  | silent => exact ⟨⟨noTurn, noProgram⟩, fun _ => hcfg hst⟩
  | truncated => exact ⟨⟨noTurn, rfl⟩, absurd rfl⟩
  | word => exact ⟨⟨noTurn, noProgram⟩, hcfg⟩
  | overflow => exact ⟨⟨noTurn, rfl⟩, absurd rfl⟩
  | finish => exact ⟨⟨noTurn, rfl⟩, absurd rfl⟩

/-- R342: a block at rest waits. -/
theorem step_idle {s : State} (hturn : s.tpsmTurn) (hst : s.st = .idle) : step s = .next s := by
  rw [step_eq_outcome, fetch_tpsm hturn, tpsmMove, hst]
  rfl

/-- R260, R261: a START in a block at rest begins a run or is rejected. -/
theorem start_cases {s a : State} (hbusy : s.status.busy = false) (h : exec .start s = .next a) :
    (configOk s = true ∧ a = beginRun s) ∨ a = rejectConfig s := by
  rw [exec, execStart, hbusy, if_neg Bool.false_ne_true] at h
  split at h
  next hok =>
    cases h
    exact .inl ⟨hok, rfl⟩
  next =>
    cases h
    exact .inr rfl

/-- What a rejected START and the beginning of a run have, and every move of a run keeps, holds at every moment of a
START run from rest. -/
theorem startRun_induction {P : State → Prop} {s a t : State} {k : Nat} (hq : s.quiet)
    (hstart : exec .start s = .next a) (hrun : a.after k = .next t) (hreject : P (rejectConfig s)) (hbegin : P (beginRun s))
    (hmove : ∀ u v f, configOk u = true → baudFactor u.baud = some f → u.st ≠ .idle → P u → Move f u v → P v) :
    P t := by
  obtain ⟨idle, noProgram, hbusy, noTurn⟩ := hq
  have hbase : Unattended a ∧ P a := by
    rcases start_cases hbusy hstart with ⟨hok, rfl⟩ | rfl
    · exact ⟨⟨⟨noTurn, rfl⟩, fun _ => hok⟩, hbegin⟩
    · exact ⟨⟨⟨noTurn, rfl⟩, absurd idle⟩, hreject⟩
  refine (after_induction (P := fun u => Unattended u ∧ P u) ?_ hbase hrun).right
  rintro u v ⟨halone, hu⟩ hstep
  by_cases hst : u.st = .idle
  · rw [step_idle halone.turn hst] at hstep
    cases hstep
    exact ⟨halone, hu⟩
  · have hcfg := halone.config hst
    obtain ⟨f, hf⟩ := Option.isSome_iff_exists.mp (baud_of_configOk hcfg)
    rw [step_eq_outcome, fetch_tpsm halone.turn] at hstep
    have hm := move_tpsmMove hcfg hf hst hstep
    exact ⟨unattended_move halone hst hm, hmove u v f hcfg hf hst hu hm⟩

/-! ## The bound on the words of a run (R220) -/

/-- The SIL and HDR words a chunk still issues at a line of its policy. -/
def lineWords : Stage → Nat
  | .silence => 2
  | .header => 1
  | .bytes => 0
  | .tail _ => 0
  | .chunkEnd => 0

/-- The SIL and HDR words a block may still issue: those of the chunk at hand, and those of a second chunk while it is
at its first. The 8 bytes of each marker pay for the words of at most two chunks. -/
def wordsOwed (st : TpsmState) (g : Stage) (further : Bool) : Nat :=
  match st with
  | .dispatching => lineWords g + if further then 0 else 2
  | .idle => 0
  | .scanning => 0
  | .done => 0

theorem wordsOwed_first (g : Stage) : wordsOwed .dispatching g false = lineWords g + 2 := rfl

theorem wordsOwed_further (g : Stage) : wordsOwed .dispatching g true = lineWords g := rfl

/-- What a move adds to the words owed, the cursor has moved on. -/
theorem silentMove_wordsOwed {s : State} {st : TpsmState} {p : Word} {g : Stage} {b : Bool}
    (hc : CursorOk s.casLen s.pos s.st s.stage) (h : SilentMove s st p g b) :
    s.pos.toNat + wordsOwed st g b ≤ p.toNat + wordsOwed s.st s.stage s.further := by
  obtain ⟨hup, -⟩ := silentMove_cursor hc h
  cases h with
  | scanEnd => exact Nat.add_le_add_left (Nat.zero_le _) _
  | scanOn => exact Nat.add_le_add_right hup _
  | dispatch state left =>
    obtain ⟨hpos, -⟩ := bytesLeft_skip_marker left
    rw [hpos, wordsOwed_first, lineWords]
    omega
  | tailBegin state line => rw [state, line]; exact le_rfl
  | marker state line => rw [state, line]; exact le_rfl
  | tailEnd t0 state line => rw [state, line]; exact le_rfl
  | complete => exact Nat.add_le_add_left (Nat.zero_le _) _
  | nextAscii state line more =>
    obtain ⟨hpos, -⟩ := bytesLeft_skip_marker (hc.left_of_chunkEnd state line more)
    rw [hpos, state, wordsOwed_further, lineWords]
    omega
  | second state line first =>
    rw [state, line, first, wordsOwed_further, wordsOwed_first, lineWords, lineWords]
    omega

/-- A SIL or HDR word was owed, and a BYTE word moves the cursor on. -/
theorem wordLine_wordsOwed {s : State} {i : Instr} {p : Word} {g : Stage} (state : s.st = .dispatching)
    (h : WordLine s i p g) :
    s.pos.toNat + wordsOwed s.st g s.further + 1 ≤ p.toNat + wordsOwed s.st s.stage s.further := by
  rw [state, wordsOwed, wordsOwed]
  cases h with
  | silence line => rw [line, lineWords, lineWords]; omega
  | header line => rw [line, lineWords, lineWords]; omega
  | byte b line left =>
    rw [line, pos_succ_toNat (lt_casLen_of_left left)]
    omega
  | tailByte b t0 line more =>
    rw [line, pos_succ_toNat more]
    omega

/-- The budget of a run over a stream of `len` bytes: the words issued and owed are at most the bytes consumed; the word
that ends the run, FIN or one that overflows, comes on top. -/
structure WordBudget (len : Word) (s : State) : Prop where
  stream : s.casLen = len
  total : s.trace.length ≤ len.toNat + 1
  running : s.st ≠ .idle → CursorOk s.casLen s.pos s.st s.stage ∧
    s.trace.length + wordsOwed s.st s.stage s.further ≤ s.pos.toNat

theorem wordBudget_move {len : Word} {f : Nat} {s t : State} (hst : s.st ≠ .idle) (h : WordBudget len s)
    (hm : Move f s t) : WordBudget len t := by
  obtain ⟨rfl, -, running⟩ := h
  obtain ⟨hc, hwords⟩ := running hst
  obtain ⟨-, hcursor⟩ := move_cursor hc hm
  have hin := hc.within
  cases hm with
  | silent move =>
    have howed := silentMove_wordsOwed hc move
    exact ⟨rfl, by dsimp only; omega, fun _ => ⟨hcursor, by dsimp only; omega⟩⟩
  | truncated => exact ⟨rfl, by simp only [raiseError_trace]; omega, absurd rfl⟩
  | word state line =>
    have howed := wordLine_wordsOwed state line
    have hp := hcursor.within
    refine ⟨rfl, ?_, fun _ => ⟨hcursor, ?_⟩⟩ <;> simp only [List.length_append, List.length_singleton] <;> omega
  | overflow =>
    exact ⟨rfl, by simp only [raiseError_trace, List.length_append, List.length_singleton]; omega, absurd rfl⟩
  | finish => exact ⟨rfl, by simp only [endRun_trace, List.length_append, List.length_singleton]; omega, absurd rfl⟩

/-- Settles O57: a run issues at most one word for every byte of the stream, and FIN. -/
theorem traceLengthBound : Obligations.TraceLengthBound := by
  intro s a t k hq hstart hrun
  have hbudget : WordBudget s.casLen t :=
    startRun_induction hq hstart hrun ⟨rfl, Nat.zero_le _, absurd hq.1⟩
      ⟨rfl, Nat.zero_le _, fun _ => ⟨⟨Nat.zero_le _, nofun⟩, le_rfl⟩⟩
      fun u v f _ _ hst hu hm => wordBudget_move hst hu hm
  have htotal := hbudget.total
  omega

/-! ## The length of a successful run (R225) -/

/-- The samples of the words of a trace at baud factor `f`. -/
def traceSamples (f : Nat) (ws : List Word) : Nat := ((microOps ws).map (sampleCount f)).sum

theorem traceSamples_append {f : Nat} {i : Instr} (hwf : WellFormed i = true) (hm : i.isMicroOp = true)
    (ws : List Word) : traceSamples f (ws ++ [encode i]) = traceSamples f ws + sampleCount f i := by
  simp [traceSamples, microOps, decodeMop_encode hwf hm]

theorem silentMove_running {s : State} {st : TpsmState} {p : Word} {g : Stage} {b : Bool} (hst : s.st ≠ .idle)
    (h : SilentMove s st p g b) : st ≠ .idle := by
  cases h with
  | scanEnd => nofun
  | dispatch => nofun
  | complete => nofun
  | _ => exact hst

/-- The write pointer of a run in progress, and the length of one that has ended without an error, is 44 plus the samples
of the words issued. -/
structure LengthIsTrace (baud : Word) (f : Nat) (s : State) : Prop where
  rate : s.baud = baud
  running : s.st ≠ .idle → s.status.done = false ∧ s.wp.toNat = 44 + traceSamples f s.trace
  ended : s.st = .idle → s.status.err = true ∨ s.outLen.toNat = 44 + traceSamples f s.trace

theorem lengthIsTrace_move {baud : Word} {f : Nat} {s t : State} (hcfg : configOk s = true) (hst : s.st ≠ .idle)
    (h : LengthIsTrace baud f s) (hm : Move f s t) : LengthIsTrace baud f t := by
  obtain ⟨rfl, running, -⟩ := h
  obtain ⟨hdone, hwp⟩ := running hst
  cases hm with
  | silent move =>
    have hrun := silentMove_running hst move
    exact ⟨rfl, fun _ => ⟨hdone, hwp⟩, (absurd · hrun)⟩
  | truncated => exact ⟨rfl, absurd rfl, fun _ => .inl rfl⟩
  | word state line out wp regs eof n samples =>
    obtain ⟨hwf, hmicro, -⟩ := wordLine_wellFormed hcfg line
    refine ⟨rfl, fun _ => ⟨hdone, ?_⟩, (absurd · hst)⟩
    rw [traceSamples_append hwf hmicro, samples, hwp, Nat.add_assoc]
  | overflow => exact ⟨rfl, absurd rfl, fun _ => .inl rfl⟩
  | finish =>
    refine ⟨rfl, absurd rfl, fun _ => .inr ?_⟩
    rw [endRun_trace, traceSamples_append rfl rfl]
    exact hwp

/-- Settles O58: the run has ended at its FIN, which adds no sample. -/
theorem outputLengthIsSumOfTrace : Obligations.OutputLengthIsSumOfTrace := by
  intro s a t k f hq hstart hrun hf hdone herr
  have hlength : LengthIsTrace s.baud f t := by
    refine startRun_induction hq hstart hrun ⟨rfl, absurd hq.1, fun _ => .inl rfl⟩
      ⟨rfl, fun _ => ⟨rfl, rfl⟩, nofun⟩ fun u v g hcfg hg hst hu hm => lengthIsTrace_move hcfg hst hu ?_
    rw [hu.rate, hf] at hg
    cases hg
    exact hm
  have hidle : t.st = .idle := by
    by_contra hst
    obtain ⟨hrunning, -⟩ := hlength.running hst
    rw [hdone] at hrunning
    cases hrunning
  exact (hlength.ended hidle).resolve_left (by simp [herr])

end Sys2Proof.Proofs
end

section
/-! The WAV header as FIN writes it (R240 to R244): the fields stand one after another, so their writes are one store of
44 bytes at address 0, and the two size fields are read back from it. -/

namespace Sys2Proof.Proofs

open Sys2Proof.Machine Sys2Proof.Laws

/-! ## Adjacent fields are one store -/

theorem memory_writeRun_append (m : Memory) (a : Nat) (vs ws : List Byte) :
    m.writeRun a (vs ++ ws) = (m.writeRun a vs).writeRun (a + vs.length) ws := by
  induction vs generalizing m a with
  | nil => rfl
  | cons v vs ih =>
    rw [List.cons_append, memory_writeRun_cons, ih, memory_writeRun_cons m a v vs, List.length_cons,
      Nat.add_assoc, Nat.add_comm 1]

/-- The fields stand one after another from an address on, without a gap or an overlap. -/
def AdjacentFrom : Nat → List HeaderField → Prop
  | _, [] => True
  | a, f :: fs => f.offset = a ∧ AdjacentFrom (a + f.bytes.length) fs

theorem writeHeader_of_adjacent {fs : List HeaderField} {a : Nat} (h : AdjacentFrom a fs) (m : Memory) :
    writeHeader fs m = m.writeRun a (fs.flatMap HeaderField.bytes) := by
  induction fs generalizing a m with
  | nil => rfl
  | cons f fs ih =>
    obtain ⟨hoffset, hrest⟩ := h
    calc writeHeader (f :: fs) m
        = writeHeader fs (m.writeRun a f.bytes) := by rw [← hoffset]; rfl
      _ = (m.writeRun a f.bytes).writeRun (a + f.bytes.length) (fs.flatMap HeaderField.bytes) := ih hrest _
      _ = m.writeRun a ((f :: fs).flatMap HeaderField.bytes) := by
        rw [← memory_writeRun_append, List.flatMap_cons]

/-! ## The 44 bytes -/

/-- The bytes of the fields of R241 in address order. -/
def headerBytes (d : Word) : List Byte := (headerFields d).flatMap HeaderField.bytes

theorem headerBytes_length (d : Word) : (headerBytes d).length = 44 := rfl

/-- R241: each field stands where the one before it ends. -/
theorem headerFields_adjacent (d : Word) : AdjacentFrom 0 (headerFields d) := by
  simp [headerFields, AdjacentFrom, le32, le16]

theorem writeHeader_read (d : Word) (m : Memory) (a : Nat) :
    (writeHeader (headerFields d) m).read a = if a < 44 then (headerBytes d)[a]? else m.read a := by
  rw [writeHeader_of_adjacent (headerFields_adjacent d), memory_read_writeRun, ← headerBytes, headerBytes_length]
  simp

/-- R240: FIN writes the header and the length, and no other field. -/
theorem exec_fin (s : State) :
    exec .fin s = .next { s with out := writeHeader (headerFields (s.wp - 44)) s.out, outLen := s.wp } := rfl

/-- Settles O14: the fields of R241 are one store of 44 bytes at address 0. -/
theorem finWritesHeaderAndLength : Obligations.FinWritesHeaderAndLength := by
  intro s
  refine ⟨_, exec_fin s, rfl, fun a ha => ?above, fun a ha => ?header⟩
  case above => rw [writeHeader_read, if_neg (Nat.not_lt.mpr ha)]
  case header =>
    rw [writeHeader_read, if_pos ha]
    rfl

/-! ## The size fields -/

/-- R243: the four bytes of a word, least significant first, are the word's base-256 digits. -/
theorem le32_toNat (v : Word) :
    (v.extractLsb' 0 8).toNat + 256 * (v.extractLsb' 8 8).toNat + 65536 * (v.extractLsb' 16 8).toNat +
      16777216 * (v.extractLsb' 24 8).toNat = v.toNat := by
  simp only [BitVec.extractLsb'_toNat, Nat.shiftRight_eq_div_pow]
  omega

/-- R242: the bytes at offsets 4 and 40 are those of the data size. -/
theorem headerBytes_sizeField (d : Word) {off : Nat} (hoff : off = 4 ∨ off = 40) {i : Nat} (hi : i < 4) :
    (headerBytes d)[off + i]? = (le32 d)[i]? := by
  rcases hoff with rfl | rfl <;> interval_cases i <;> rfl

theorem writeHeader_read_sizeField (d : Word) (m : Memory) {off : Nat} (hoff : off = 4 ∨ off = 40) {i : Nat}
    (hi : i < 4) : (writeHeader (headerFields d) m).read (off + i) = (le32 d)[i]? := by
  rw [writeHeader_read, if_pos (by omega), headerBytes_sizeField d hoff hi]

/-- Settles O15: each size field is `LE32(wp - 44)`, and the published length is `wp`. -/
theorem headerSizesAreLengthMinus44 : Obligations.HeaderSizesAreLengthMinus44 := by
  intro s t hwp hfin off hoff
  rw [exec_fin] at hfin
  cases hfin
  have hread := fun i (hi : i < 4) => writeHeader_read_sizeField (s.wp - 44) s.out hoff hi
  refine ⟨_, _, _, _, hread 0 (by decide), hread 1 (by decide), hread 2 (by decide), hread 3 (by decide), ?_⟩
  rw [le32_toNat]
  exact BitVec.toNat_sub_of_le hwp

end Sys2Proof.Proofs
end

section
/-! The host commands START and SRST (R260, R261, R263), and the legal rates the pulses of a micro-operation need
(U17; log 13). -/

namespace Sys2Proof.Proofs

open Sys2Proof.Machine Sys2Proof.Laws

/-! ## Legal configurations (R261) -/

/-- R7: the two legal rates are those with a factor. -/
theorem baudFactor_isSome_iff (b : Word) : (baudFactor b).isSome = true ↔ b = 1200 ∨ b = 2400 := by
  constructor
  · intro h
    obtain ⟨k, hk⟩ := Option.isSome_iff_exists.mp h
    exact (baudFactor_cases hk).imp And.left And.left
  · rintro (rfl | rfl) <;> rfl

theorem baudFactor_eq_none {b : Word} (h12 : b ≠ 1200) (h24 : b ≠ 2400) : baudFactor b = none :=
  (if_neg h12).trans (if_neg h24)

theorem configOk_iff (s : State) :
    configOk s = true ↔
      (s.baud = 1200 ∨ s.baud = 2400) ∧ s.leadinS.toInt ≤ 6213 ∧ s.casLen.toNat ≤ s.cfg.casCap.toNat := by
  rw [configOk, Bool.and_eq_true, Bool.and_eq_true, baudFactor_isSome_iff, decide_eq_true_eq, decide_eq_true_eq,
    and_assoc]
  rfl

/-! ## Pulses at an illegal rate -/

/-- Settles O12: where there is no factor, `withBaudFactor` raises BAD_CONFIG, and HDR of at least one pulse asks
for one. -/
theorem pulsesNeedLegalBaud : Obligations.PulsesNeedLegalBaud := by
  intro i s h12 h24 hi
  have hraise := withBaudFactor_none (baudFactor_eq_none h12 h24)
  rcases hi with ⟨t, rfl⟩ | ⟨p, hp, rfl⟩ | ⟨d, rfl⟩
  · exact congrArg _ (hraise _)
  · exact congrArg _ ((if_neg hp).trans (hraise _))
  · exact congrArg _ (hraise _)

/-! ## START -/

theorem exec_start_busy {s : State} (h : s.status.busy = true) : exec .start s = .next s := if_pos h

/-- R260, R261: a START in a block at rest, with a legal configuration and without. -/
theorem exec_start_ok {s : State} (hbusy : s.status.busy = false) (h : configOk s = true) :
    exec .start s = .next (beginRun s) :=
  (if_neg (Bool.eq_false_iff.mp hbusy)).trans (if_pos h)

theorem exec_start_rejected {s : State} (hbusy : s.status.busy = false) (h : ¬ configOk s = true) :
    exec .start s = .next (rejectConfig s) :=
  (if_neg (Bool.eq_false_iff.mp hbusy)).trans (if_neg h)

/-- R305: STATUS shows DONE, ERR and code 3. -/
@[simp] theorem rejectConfig_status_word (s : State) : (rejectConfig s).status.word = 0x036 :=
  show ({ Status.clear with err := true, errcode := .badConfig, done := true } : Status).word = 0x036 by decide

/-- Settles O19: the three conditions are `configOk`, and the new state is `beginRun`. -/
theorem startBeginsRun : Obligations.StartBeginsRun := fun s hbusy hbaud hlead hlen =>
  exec_start_ok hbusy ((configOk_iff s).mpr ⟨hbaud, hlead, hlen⟩)

/-- Settles O20. -/
theorem startRejectsBadConfig : Obligations.StartRejectsBadConfig := fun s hbusy hbad =>
  ⟨rejectConfig s, exec_start_rejected hbusy (mt (configOk_iff s).mp hbad), rejectConfig_status_word s, rfl⟩

/-- Settles O21. -/
theorem startIgnoredWhileBusy : Obligations.StartIgnoredWhileBusy := fun _ => exec_start_busy

/-! ## SRST -/

/-- Settles O22: STATUS is the cleared one, so DONE is 0 and no OUT address has a defined value. -/
theorem srstAbortsAndClears : Obligations.SrstAbortsAndClears := fun _ =>
  ⟨_, rfl, rfl, status_clear_word, outDefined_of_not_done rfl⟩

end Sys2Proof.Proofs
end

section
/-! A step runs the decoded instruction (R101, R266), and a program of the micro-operation port from its first turn to
its last (R266). -/

namespace Sys2Proof.Proofs

open Sys2Proof.Machine Sys2Proof.Laws

/-! ## What a turn fetches -/

theorem fetch_port {s : State} {ws : List Word} (hs : s.schedule = []) (hp : s.prog = some ws) :
    fetch s = portMove ws s := by
  rw [fetch_block hs, blockMove, hp]

theorem portMove_legal {w : Word} {i : Instr} (h : decodeMop w = .ok i) (ws : List Word) (s : State) :
    portMove (w :: ws) s = .run i { s with prog := some ws } (afterPortWord i) := by
  rw [portMove, h]

/-- R101: a word write to CTRL at offset 0 that spells a command. -/
theorem hostAccess_ctrl {c : Word} {i : Instr} (h : decodeCtrl c = .ok i) (s : State) :
    hostAccess (.writeReg .word 0 c) s = .run i s id := by
  rw [hostAccess, if_pos (portAccessOk_word 0 |>.mpr ⟨rfl, by decide⟩), if_pos rfl, h]

theorem thenDo_id (o : Host.Outcome State Fault Refusal) : thenDo o id = o := by cases o <;> rfl

/-- R266: a legal word at the head of the port. -/
theorem step_port_word {s : State} {w : Word} {ws : List Word} {i : Instr} (hs : s.schedule = [])
    (hp : s.prog = some (w :: ws)) (h : decodeMop w = .ok i) :
    step s = thenDo (exec i { s with prog := some ws }) (afterPortWord i) :=
  step_of_run ((fetch_port hs hp).trans (portMove_legal h ws s))

/-- Settles O23. -/
theorem stepRunsDecodedInstruction : Obligations.StepRunsDecodedInstruction :=
  ⟨fun _ _ _ _ => step_port_word,
    fun _ _ _ _ hs hc => (step_of_run ((fetch_host hs).trans (hostAccess_ctrl hc _))).trans (thenDo_id _),
    fun _ _ _ _ => step_of_run⟩

/-! ## The entry of `ExecProgram` -/

theorem beginProgram_illegal {s : State} (h : ¬ (s.baud = 1200 ∨ s.baud = 2400)) (ws : List Word) :
    beginProgram ws s = rejectConfig s :=
  if_neg (mt (baudFactor_isSome_iff s.baud).mp h)

theorem beginProgram_legal {s : State} (h : s.baud = 1200 ∨ s.baud = 2400) (ws : List Word) :
    beginProgram ws s = { clearResult s with
      status := { Status.clear with busy := true }, wp := 44, prog := some ws } :=
  if_pos ((baudFactor_isSome_iff s.baud).mpr h)

theorem step_drive {s : State} {ws : List Word} {rest : List Turn} (hs : s.schedule = .host (.drive ws) :: rest)
    (hbusy : s.status.busy = false) : step s = .next (beginProgram ws { s with schedule := rest }) :=
  step_host hs (if_neg (Bool.eq_false_iff.mp hbusy))

/-- Settles O25. -/
theorem driveBeginsProgram : Obligations.DriveBeginsProgram := by
  intro s ws rest hs
  refine ⟨fun hbusy => ?busy, fun hbusy hbaud => ?legal, fun hbusy hbaud => ?illegal⟩
  case busy => exact step_host hs (if_pos hbusy)
  case legal =>
    rw [step_drive hs hbusy, beginProgram_legal (s := { s with schedule := rest }) hbaud]
    rfl
  case illegal =>
    rw [step_drive hs hbusy, beginProgram_illegal (s := { s with schedule := rest }) hbaud]
    exact ⟨_, rfl, rejectConfig_status_word _, rfl, rfl, rfl⟩

/-! ## The two ends of a program -/

/-- R266: the end of the list. -/
theorem step_port_empty {s : State} (hs : s.schedule = []) (hp : s.prog = some []) : step s = .next (endRun s) :=
  step_of_settled (fetch_port hs hp)

/-- R240, R266: FIN at the head of the port; the words behind it are dropped. -/
theorem step_port_fin {s : State} {w : Word} {ws : List Word} (hs : s.schedule = []) (hp : s.prog = some (w :: ws))
    (h : decodeMop w = .ok .fin) :
    step s = .next (endRun { s with out := writeHeader (headerFields (s.wp - 44)) s.out, outLen := s.wp }) :=
  step_port_word hs hp h

/-- Settles O27. -/
theorem programEnds : Obligations.ProgramEnds :=
  ⟨fun _ _ _ => step_port_fin, fun _ => step_port_empty⟩

end Sys2Proof.Proofs
end

section
/-! One turn of a START run as a plan, a function of the stream and the TPSM's registers alone, and the carrying out of
that plan (R200 to R216, R265); and the samples of a word in closed form, also where they do not fit (R122, R126). -/

namespace Sys2Proof.Proofs

open Sys2Proof.Machine Sys2Proof.Laws

/-! ## The plan of a turn -/

/-- What a turn of the TPSM sets out to do. -/
inductive Plan where
  /-- IDLE. -/
  | wait
  /-- too few bytes for a marker. -/
  | scanEnd
  /-- no marker at the cursor. -/
  | scanOn
  /-- a marker, and too few bytes behind it. -/
  | truncate
  /-- a marker, and a block of a mode behind it. -/
  | dispatch (m : Mode)
  /-- another line of the policy, without a word. -/
  | line (g : Stage) (eof : Bool)
  /-- a word, and where the policy stands behind it. -/
  | word (i : Instr) (p : Word) (g : Stage) (eof : Bool)
  /-- a further chunk, at a cursor. -/
  | chunk (p : Word)
  /-- the block is complete. -/
  | complete
  /-- FIN. -/
  | finish

/-- One pass of the scan (R205 to R208). -/
def scanPlan (s : State) : Plan :=
  if bytesLeft s < 8 then .scanEnd
  else if casBytes s s.pos.toNat 8 ≠ syncMarker then .scanOn
  else if bytesLeft s < 18 then .truncate
  else .dispatch (classify (casBytes s (s.pos.toNat + 8) 10))

/-- Behind a chunk (R212 to R215). -/
def chunkPlan (s : State) : Plan :=
  match s.cur with
  | .unknown => .complete
  | .ascii => if s.eof = false ∧ s.pos.toNat < s.casLen.toNat then .chunk (s.pos + 8) else .complete
  | .binary => if s.further = true then .complete else .chunk (clampedSkip s)
  | .basic => if s.further = true then .complete else .chunk (clampedSkip s)

/-- One line of a policy (R210 to R214). -/
def linePlan (s : State) : Plan :=
  match s.stage with
  | .silence => .word (.sil (chunkSilence s)) s.pos .header s.eof
  | .header => .word (.hdr (chunkHeader s)) s.pos .bytes false
  | .bytes =>
    if bytesLeft s < 8 then .line (.tail s.pos) s.eof
    else if casBytes s s.pos.toNat 8 = syncMarker then .line .chunkEnd s.eof
    else .word (.byte (casByte s s.pos.toNat)) (s.pos + 1) .bytes (s.eof || decide (casByte s s.pos.toNat = 0x1A))
  | .tail t0 =>
    if s.pos.toNat < s.casLen.toNat then .word (.byte (casByte s s.pos.toNat)) (s.pos + 1) (.tail t0) s.eof
    else .line .chunkEnd (s.eof || (decide (t0.toNat < s.casLen.toNat) && decide (casByte s t0.toNat = 0x1A)))
  | .chunkEnd => chunkPlan s

/-- What a turn sets out to do; no OUT memory, no write pointer and no transient register bears on it. -/
def plan (s : State) : Plan :=
  match s.st with
  | .idle => .wait
  | .scanning => scanPlan s
  | .dispatching => linePlan s
  | .done => .finish

/-- The plan carried out. -/
def Plan.perform : Plan → State → Host.Outcome State Fault Refusal
  | .wait, s => .next s
  | .scanEnd, s => .next { s with st := .done }
  | .scanOn, s => .next { s with pos := s.pos + 1 }
  | .truncate, s => .next (raiseError .truncatedBlock (some (.marker s.pos)) { s with pos := s.pos + 8 })
  | .dispatch m, s => .next { s with
      pos := s.pos + 8
      st := .dispatching
      cur := m
      status := if s.status.modeValid then s.status else { s.status with mode := m, modeValid := true }
      stage := .silence
      further := false }
  | .line g eof, s => .next { s with stage := g, eof := eof }
  | .word i p g eof, s =>
    thenDo (exec i { s with trace := s.trace ++ [encode i] })
      (tpsmThen fun t => { t with pos := p, stage := g, eof := eof })
  | .chunk p, s => .next (nextChunk p s)
  | .complete, s => .next (backToScanning s)
  | .finish, s => .next (endRun { s with
      trace := s.trace ++ [encode .fin]
      out := writeHeader (headerFields (s.wp - 44)) s.out
      outLen := s.wp })

/-! ## A turn carries out its plan -/

/-- A word whose continuation sets the cursor, the line and `eof`, and leaves of them what the word left (R201). -/
theorem perform_word_congr {i : Instr} {s : State} (hm : i.isMicroOp = true) {after : State → State} {p : Word}
    {g : Stage} {eof : Bool}
    (h : ∀ u, SameInputs { s with trace := s.trace ++ [encode i] } u →
      after u = { u with pos := p, stage := g, eof := eof }) :
    thenDo (exec i { s with trace := s.trace ++ [encode i] }) (tpsmThen after) = (Plan.word i p g eof).perform s :=
  thenDo_congr fun u hu => tpsmThen_congr (h u (exec_micro_sameInputs hm hu))

section
variable {s : State}

theorem step_scanPlan (hturn : s.tpsmTurn) (htaint : s.casTainted = false) (hst : s.st = .scanning) :
    step s = (scanPlan s).perform s := by
  obtain ⟨hend, hon, -⟩ := scanMoves s hturn hst htaint
  unfold scanPlan
  split
  next hshort => exact hend hshort
  next hleft =>
    have hleft := Nat.not_lt.mp hleft
    split
    next hother => exact hon hleft hother
    next hsync =>
      have hsync := not_not.mp hsync
      split
      next hshort =>
        rw [step_scanning hturn hst, scanMove_marker htaint hleft hsync, dispatchBlock_short hleft hshort]
        rfl
      next hblock => exact markerDispatchesBlock s hturn hst htaint (Nat.not_lt.mp hblock) hsync

theorem step_chunkPlan (hturn : s.tpsmTurn) (hst : s.st = .dispatching) (hstage : s.stage = .chunkEnd) :
    step s = (chunkPlan s).perform s := by
  rw [step_dispatching hturn hst, policyMove_chunkEnd hstage, outcome, chunkPlan]
  have hskip (hcur : s.cur = .binary ∨ s.cur = .basic) : Host.Outcome.next (afterChunk s) =
      Plan.perform (if s.further = true then .complete else .chunk (clampedSkip s)) s := by
    rw [afterChunk_binary_basic hcur, afterBinBasicChunk]
    split <;> rfl
  cases hcur : s.cur with
  | unknown => exact congrArg _ (afterChunk_unknown hcur)
  | ascii =>
    rw [afterChunk_ascii hcur]
    dsimp only
    split <;> rfl
  | binary => exact hskip (.inl hcur)
  | basic => exact hskip (.inr hcur)

theorem step_linePlan (hturn : s.tpsmTurn) (htaint : s.casTainted = false) (hcfg : configOk s = true)
    (hst : s.st = .dispatching) : step s = (linePlan s).perform s := by
  obtain ⟨hbaud, hlead, -⟩ := (configOk_iff s).mp hcfg
  unfold linePlan
  cases hstage : s.stage with
  | silence =>
    rw [step_dispatching hturn hst, policyMove_silence hstage,
      outcome_issueFromTpsm (chunkSilence_wellFormed hlead) rfl]
    exact perform_word_congr rfl fun u hu => by rw [← hu.pos, ← hu.eof]
  | header =>
    rw [step_dispatching hturn hst, policyMove_header hstage,
      outcome_issueFromTpsm (chunkHeader_wellFormed hbaud) rfl]
    exact perform_word_congr rfl fun u hu => by rw [← hu.pos]
  | bytes =>
    obtain ⟨htail, hmarker, hbyte⟩ := dataPerBytePhase s hturn hst hstage htaint
    dsimp only
    split
    next hshort => exact htail hshort
    next hleft =>
      have hleft := Nat.not_lt.mp hleft
      split
      next hsync => exact hmarker hleft hsync
      next hsync =>
        rw [hbyte hleft hsync]
        exact perform_word_congr rfl fun u hu => by rw [← hstage, ← hu.stage]
  | tail t0 =>
    obtain ⟨hbyte, hend⟩ := dataTailPhase s t0 hturn hst hstage htaint
    dsimp only
    split
    next hmore =>
      rw [hbyte hmore]
      exact perform_word_congr rfl fun u hu => by rw [← hstage, ← hu.stage, ← hu.eof]
    next hstop => exact hend (Nat.not_lt.mp hstop)
  | chunkEnd => exact step_chunkPlan hturn hst hstage

end

/-- A START run nobody disturbs: the host is silent, no program runs, the configuration of a run in progress is legal,
and the host kept its duty of R75. -/
structure Alone (s : State) : Prop extends Unattended s where
  untainted : s.casTainted = false

/-- A turn of such a run carries out its plan. -/
theorem step_eq_perform {s : State} (h : Alone s) : step s = (plan s).perform s := by
  unfold plan
  cases hst : s.st with
  | idle => exact step_idle h.turn hst
  | scanning => exact step_scanPlan h.turn h.untainted hst
  | dispatching => exact step_linePlan h.turn h.untainted (h.config (by simp [hst])) hst
  | done =>
    rw [step_eq_outcome, fetch_tpsm h.turn, tpsmMove_done hst, outcome_issue_fin hst]
    rfl

theorem alone_step {s t : State} (h : Alone s) (hstep : step s = .next t) : Alone t := by
  obtain ⟨u, hu, -, -, -, -, -, htaint, -⟩ := blockTurnKeepsInputs.1 s (.inl h.turn.1)
  obtain rfl : u = t := by rw [hstep] at hu; cases hu; rfl
  refine ⟨?_, htaint.trans h.untainted⟩
  by_cases hst : s.st = .idle
  · rw [step_idle h.turn hst] at hstep
    cases hstep
    exact h.toUnattended
  · have hcfg := h.config hst
    obtain ⟨f, hf⟩ := Option.isSome_iff_exists.mp (baud_of_configOk hcfg)
    rw [step_eq_outcome, fetch_tpsm h.turn] at hstep
    exact unattended_move h.toUnattended hst (move_tpsmMove hcfg hf hst hstep)

theorem run_of_step {M : Host.Core} {s t : M.State} (h : M.step s = .next t) (k : Nat) :
    M.run (k + 1) s = M.run k t := by
  rw [Host.Core.run, h]

theorem after_of_step {s t : State} (h : step s = .next t) (k : Nat) : s.after (k + 1) = t.after k :=
  run_of_step (M := core) h k

theorem alone_beginRun {s : State} (hturn : s.schedule = []) (hcfg : configOk s = true) : Alone (beginRun s) :=
  ⟨⟨⟨hturn, rfl⟩, fun _ => hcfg⟩, rfl⟩

/-! ## The words of a plan -/

/-- A planned word is one of the policy's (R210 to R214). -/
theorem wordLine_of_plan {s : State} {i : Instr} {p : Word} {g : Stage} {eof : Bool} (h : plan s = .word i p g eof) :
    s.st = .dispatching ∧ WordLine s i p g := by
  unfold plan at h
  cases hst : s.st with
  | idle => simp [hst] at h
  | scanning =>
    simp only [hst, scanPlan] at h
    repeat' split at h
    all_goals cases h
  | done => simp [hst] at h
  | dispatching =>
    refine ⟨rfl, ?_⟩
    simp only [hst, linePlan] at h
    cases hstage : s.stage with
    | silence =>
      simp only [hstage] at h
      cases h
      exact .silence hstage
    | header =>
      simp only [hstage] at h
      cases h
      exact .header hstage
    | bytes =>
      simp only [hstage] at h
      repeat' split at h
      all_goals cases h
      exact .byte _ hstage (by omega)
    | tail t0 =>
      simp only [hstage] at h
      split at h
      all_goals cases h
      exact .tailByte _ t0 hstage (by omega)
    | chunkEnd =>
      simp only [hstage, chunkPlan] at h
      repeat' split at h
      all_goals cases h

/-! ## The samples of a word, in closed form -/

/-- The bytes left in OUT memory. -/
def outRoom (s : State) : Nat := s.cfg.outCap.toNat - s.wp.toNat

/-- The samples of a word stored as far as they fit (R122, R125). -/
def storeFitting (vs : List Byte) (r : Transient) (s : State) : State :=
  { s with
    out := s.out.writeRun s.wp.toNat (vs.take (outRoom s))
    wp := s.wp + BitVec.ofNat 32 (vs.take (outRoom s)).length
    regs := r }

theorem samplesOf_take (n : Nat) (es : List Emission) : samplesOf (es.take n) = (samplesOf es).take n := List.map_take

theorem emitAll_of_fits {es : List Emission} {s : State} (h : es.length ≤ outRoom s) (fin : Transient) :
    emitAll es fin s = storeFitting (samplesOf es) fin s := by
  unfold emitAll
  dsimp only
  rw [← outRoom, samplesOf_take, List.drop_eq_nil_of_le h]
  rfl

/-- R126: where the samples do not all fit, OUTPUT_OVERFLOW is raised behind those that do. -/
theorem emitAll_of_overflow {es : List Emission} {s : State} (h : ¬ es.length ≤ outRoom s) (fin : Transient) :
    ∃ x r, emitAll es fin s = raiseError .outputOverflow x (storeFitting (samplesOf es) r s) := by
  unfold emitAll
  dsimp only
  rw [← outRoom, samplesOf_take]
  cases hd : es.drop (outRoom s) with
  | nil => exact absurd (List.drop_eq_nil_iff.mp hd) h
  | cons e rest => exact ⟨_, e.regs, rfl⟩

section
variable {s : State} {f : Nat} {i : Instr} (hf : baudFactor s.baud = some f) (hm : i.isMicroOp = true) (hfin : i ≠ .fin)
include hf hm hfin

/-- R122, R125: a sample-writing micro-operation at a legal rate, where its samples fit. -/
theorem exec_of_fits (h : (microSamples f i).length ≤ outRoom s) :
    ∃ r, exec i s = .next (storeFitting (microSamples f i) r s) := by
  obtain ⟨es, fin, hes, hexec⟩ := exec_emits hf i hm hfin
  rw [← hes, samplesOf_length] at h
  exact ⟨fin, by rw [hexec, emitAll_of_fits h, hes]⟩

/-- R126: and where they do not. -/
theorem exec_of_overflow (h : ¬ (microSamples f i).length ≤ outRoom s) :
    ∃ x r, exec i s = .next (raiseError .outputOverflow x (storeFitting (microSamples f i) r s)) := by
  obtain ⟨es, fin, hes, hexec⟩ := exec_emits hf i hm hfin
  rw [← hes, samplesOf_length] at h
  obtain ⟨x, r, hemit⟩ := emitAll_of_overflow h fin
  exact ⟨x, r, by rw [hexec, hemit, hes]⟩

/-- R201: a word of a run whose samples fit. -/
theorem perform_word_of_fits (hst : s.st ≠ .idle) (h : (microSamples f i).length ≤ outRoom s) (p : Word) (g : Stage)
    (eof : Bool) :
    ∃ r, (Plan.word i p g eof).perform s = .next
      { storeFitting (microSamples f i) r { s with trace := s.trace ++ [encode i] } with
        pos := p, stage := g, eof := eof } := by
  obtain ⟨r, hexec⟩ := exec_of_fits (s := { s with trace := s.trace ++ [encode i] }) hf hm hfin h
  exact ⟨r, (congrArg (thenDo · _) hexec).trans (congrArg _ (if_neg hst))⟩

/-- R304: a word of a run whose samples do not fit ends it. -/
theorem perform_word_of_overflow (h : ¬ (microSamples f i).length ≤ outRoom s) (p : Word) (g : Stage) (eof : Bool) :
    ∃ x r, (Plan.word i p g eof).perform s = .next (raiseError .outputOverflow x
      (storeFitting (microSamples f i) r { s with trace := s.trace ++ [encode i] })) := by
  obtain ⟨x, r, hexec⟩ := exec_of_overflow (s := { s with trace := s.trace ++ [encode i] }) hf hm hfin h
  exact ⟨x, r, (congrArg (thenDo · _) hexec).trans (congrArg _ (if_pos rfl))⟩

end

end Sys2Proof.Proofs
end

section
/-! What a run shows the host depends on its inputs alone (R265, R343): two runs over the same inputs carry out the same
plans, side by side. -/

namespace Sys2Proof.Proofs

open Sys2Proof.Machine Sys2Proof.Laws

/-! ## Runs over the same inputs -/

/-- Two memories hold the same bytes at the addresses `lo .. hi-1`. -/
def SameBytes (lo hi : Nat) (m n : Memory) : Prop := ∀ a, lo ≤ a → a < hi → n.read a = m.read a

/-- Two moments of runs over the same inputs: the TPSM stands at the same place, the host sees the same, and the samples
and a finished run's header are the same. Where no block is being dispatched the place in the policy does not matter. -/
structure Alike (s₁ s₂ : State) : Prop where
  outCap : s₂.cfg.outCap = s₁.cfg.outCap
  baud : s₂.baud = s₁.baud
  leadinS : s₂.leadinS = s₁.leadinS
  casLen : s₂.casLen = s₁.casLen
  stream : ∀ x, x < s₁.casLen.toNat → casByte s₂ x = casByte s₁ x
  status : s₂.status = s₁.status
  outLen : s₂.outLen = s₁.outLen
  st : s₂.st = s₁.st
  cur : s₂.cur = s₁.cur
  pos : s₂.pos = s₁.pos
  eof : s₂.eof = s₁.eof
  wp : s₂.wp = s₁.wp
  trace : s₂.trace = s₁.trace
  stage : s₁.st = .dispatching → s₂.stage = s₁.stage
  further : s₁.st = .dispatching → s₂.further = s₁.further
  running : s₁.st ≠ .idle → s₁.outLen = 0
  samples : SameBytes 44 s₁.wp.toNat s₁.out s₂.out
  result : s₁.outLen ≠ 0 → s₁.outLen = s₁.wp ∧ SameBytes 0 44 s₁.out s₂.out

/-! ## The same plan -/

theorem end_le_casLen {s : State} {n : Nat} (hn : 0 < n) (hleft : n ≤ bytesLeft s) :
    s.pos.toNat + n ≤ s.casLen.toNat := by
  rw [bytesLeft] at hleft
  omega

section
variable {s₁ s₂ : State} (h : Alike s₁ s₂)
include h

theorem Alike.bytesLeft : bytesLeft s₂ = bytesLeft s₁ := by
  rw [Machine.bytesLeft, h.casLen, h.pos, Machine.bytesLeft]

/-- R62: a window inside the stream. -/
theorem Alike.casBytes {a n : Nat} (hin : a + n ≤ s₁.casLen.toNat) : casBytes s₂ a n = casBytes s₁ a n :=
  List.map_congr_left fun i hi => h.stream (a + i) (by have := List.mem_range.mp hi; omega)

theorem Alike.scanPlan : scanPlan s₂ = scanPlan s₁ := by
  rw [Proofs.scanPlan, Proofs.scanPlan, h.bytesLeft, h.pos]
  by_cases hshort : Machine.bytesLeft s₁ < 8
  · rw [if_pos hshort, if_pos hshort]
  · rw [if_neg hshort, if_neg hshort, h.casBytes (end_le_casLen (by decide) (Nat.not_lt.mp hshort))]
    by_cases htrunc : Machine.bytesLeft s₁ < 18
    · rw [if_pos htrunc, if_pos htrunc]
    · have hin := end_le_casLen (by decide) (Nat.not_lt.mp htrunc)
      rw [h.casBytes (by omega)]

theorem Alike.chunkPlan (hst : s₁.st = .dispatching) : chunkPlan s₂ = chunkPlan s₁ := by
  rw [Proofs.chunkPlan, Proofs.chunkPlan, clampedSkip, clampedSkip, h.cur, h.eof, h.pos, h.casLen, h.further hst]

theorem Alike.linePlan (hst : s₁.st = .dispatching) : linePlan s₂ = linePlan s₁ := by
  rw [Proofs.linePlan, Proofs.linePlan, h.stage hst]
  cases s₁.stage with
  | silence => simp only [chunkSilence, h.further hst, h.cur, h.leadinS, h.pos, h.eof]
  | header => simp only [chunkHeader, h.further hst, h.baud, h.pos]
  | bytes =>
    dsimp only
    rw [h.bytesLeft, h.pos, h.eof]
    by_cases hshort : Machine.bytesLeft s₁ < 8
    · rw [if_pos hshort, if_pos hshort]
    · have hin := end_le_casLen (by decide) (Nat.not_lt.mp hshort)
      rw [if_neg hshort, if_neg hshort, h.casBytes hin, h.stream _ (by omega)]
  | tail t0 =>
    dsimp only
    rw [h.casLen, h.pos, h.eof]
    by_cases hmore : s₁.pos.toNat < s₁.casLen.toNat
    · rw [if_pos hmore, if_pos hmore, h.stream _ hmore]
    · rw [if_neg hmore, if_neg hmore]
      by_cases htail : t0.toNat < s₁.casLen.toNat
      · rw [h.stream _ htail]
      · rw [decide_eq_false htail, Bool.false_and, Bool.false_and]
  | chunkEnd => exact h.chunkPlan hst

/-- The plan of a turn depends on the inputs and the TPSM's place alone. -/
theorem Alike.plan : plan s₂ = plan s₁ := by
  rw [Proofs.plan, Proofs.plan, h.st]
  cases hst : s₁.st with
  | idle => rfl
  | scanning => exact h.scanPlan
  | dispatching => exact h.linePlan hst
  | done => rfl

end

/-! ## The same result -/

/-- The same bytes stored behind the same samples. -/
theorem sameBytes_writeRun {m n : Memory} {lo wp : Nat} (h : SameBytes lo wp m n) (vs : List Byte) {hi : Nat}
    (hhi : hi ≤ wp + vs.length) : SameBytes lo hi (m.writeRun wp vs) (n.writeRun wp vs) := by
  intro a hlow hhigh
  rw [memory_read_writeRun, memory_read_writeRun]
  split
  next => rfl
  next hout => exact h a hlow (by omega)

theorem sameBytes_writeHeader {m n : Memory} (d : Word) {hi : Nat} (h : SameBytes 44 hi m n) :
    SameBytes 0 44 (writeHeader (headerFields d) m) (writeHeader (headerFields d) n) ∧
      SameBytes 44 hi (writeHeader (headerFields d) m) (writeHeader (headerFields d) n) := by
  constructor
  · intro a _ ha
    rw [writeHeader_read, writeHeader_read, if_pos ha, if_pos ha]
  · intro a hlow hhigh
    rw [writeHeader_read_high d n hlow, writeHeader_read_high d m hlow]
    exact h a hlow hhigh

section
variable {s₁ s₂ : State} (h : Alike s₁ s₂)
include h

theorem Alike.raiseError (code : ErrCode) (x₁ x₂ : Option ErrorInfo) :
    Alike (raiseError code x₁ s₁) (raiseError code x₂ s₂) :=
  { h with
    status := congrArg (fun x : Status => { x with busy := false, err := true, errcode := code, done := true }) h.status
    outLen := rfl
    st := rfl
    stage := nofun
    further := nofun
    running := absurd rfl
    result := absurd rfl }

theorem Alike.storeFitting (hst : s₁.st ≠ .idle) (vs : List Byte) (r₁ r₂ : Transient) :
    Alike (storeFitting vs r₁ s₁) (storeFitting vs r₂ s₂) := by
  have hroom : outRoom s₂ = outRoom s₁ := by rw [outRoom, outRoom, h.outCap, h.wp]
  have hwp (n : Nat) : (s₁.wp + BitVec.ofNat 32 n).toNat ≤ s₁.wp.toNat + n := by
    rw [BitVec.toNat_add, BitVec.toNat_ofNat]
    omega
  refine { h with wp := ?wp, samples := ?samples, result := absurd (h.running hst) }
  case wp => simp only [Proofs.storeFitting, hroom, h.wp]
  case samples =>
    simp only [Proofs.storeFitting, hroom, h.wp]
    exact sameBytes_writeRun h.samples _ (hwp _)

theorem Alike.issue (w : Word) : Alike { s₁ with trace := s₁.trace ++ [w] } { s₂ with trace := s₂.trace ++ [w] } :=
  { h with trace := congrArg (· ++ [w]) h.trace }

/-- R201: the same word, from alike states. -/
theorem Alike.perform_word (hcfg₁ : configOk s₁ = true) {i : Instr} (hrun : s₁.st ≠ .idle)
    {p : Word} {g : Stage} (line : WordLine s₁ i p g) (eof : Bool) :
    ∃ t₁ t₂, (Plan.word i p g eof).perform s₁ = .next t₁ ∧ (Plan.word i p g eof).perform s₂ = .next t₂ ∧
      Alike t₁ t₂ := by
  obtain ⟨hwf, hm, hfin⟩ := wordLine_wellFormed hcfg₁ line
  obtain ⟨f, hf₁⟩ := Option.isSome_iff_exists.mp (baud_of_configOk hcfg₁)
  have hf₂ : baudFactor s₂.baud = some f := h.baud ▸ hf₁
  have hroom : outRoom s₂ = outRoom s₁ := by rw [outRoom, outRoom, h.outCap, h.wp]
  have hstored := (h.issue (encode i)).storeFitting hrun (microSamples f i)
  by_cases hfit : (microSamples f i).length ≤ outRoom s₁
  · obtain ⟨r₁, h₁⟩ := perform_word_of_fits hf₁ hm hfin hrun hfit p g eof
    obtain ⟨r₂, h₂⟩ := perform_word_of_fits hf₂ hm hfin (h.st ▸ hrun) (hroom ▸ hfit) p g eof
    exact ⟨_, _, h₁, h₂, { hstored r₁ r₂ with pos := rfl, eof := rfl, stage := fun _ => rfl }⟩
  · obtain ⟨x₁, r₁, h₁⟩ := perform_word_of_overflow hf₁ hm hfin hfit p g eof
    obtain ⟨x₂, r₂, h₂⟩ := perform_word_of_overflow hf₂ hm hfin (hroom ▸ hfit) p g eof
    exact ⟨_, _, h₁, h₂, (hstored r₁ r₂).raiseError .outputOverflow x₁ x₂⟩

theorem Alike.endRun : Alike (endRun s₁) (endRun s₂) :=
  { h with
    status := congrArg (fun x : Status => { x with busy := false, done := true }) h.status
    st := rfl
    stage := nofun
    further := nofun
    running := absurd rfl }

/-- R216, R240: the header and the length of alike runs. -/
theorem Alike.finish : Alike
    (Machine.endRun { s₁ with
      trace := s₁.trace ++ [encode .fin]
      out := writeHeader (headerFields (s₁.wp - 44)) s₁.out
      outLen := s₁.wp })
    (Machine.endRun { s₂ with
      trace := s₂.trace ++ [encode .fin]
      out := writeHeader (headerFields (s₂.wp - 44)) s₂.out
      outLen := s₂.wp }) := by
  obtain ⟨hheader, hsamples⟩ := sameBytes_writeHeader (s₁.wp - 44) h.samples
  have hissued := (h.issue (encode .fin)).endRun
  refine { hissued with outLen := h.wp, running := absurd rfl, samples := ?samples, result := fun _ => ⟨rfl, ?header⟩ }
  case samples => simpa [h.wp] using hsamples
  case header => simpa [h.wp] using hheader

/-- Alike states stay alike over a turn. -/
theorem Alike.step (halone₁ : Alone s₁) (halone₂ : Alone s₂) :
    ∃ t₁ t₂, step s₁ = .next t₁ ∧ step s₂ = .next t₂ ∧ Alike t₁ t₂ := by
  rw [step_eq_perform halone₁, step_eq_perform halone₂, h.plan]
  by_cases hst : s₁.st = .idle
  · rw [Proofs.plan, hst]
    exact ⟨_, _, rfl, rfl, h⟩
  · have hlen := h.running hst
    cases hplan : Proofs.plan s₁ with
    | wait => exact ⟨_, _, rfl, rfl, h⟩
    | scanEnd =>
      exact ⟨_, _, rfl, rfl, { h with st := rfl, running := fun _ => hlen, stage := nofun, further := nofun }⟩
    | scanOn => exact ⟨_, _, rfl, rfl, { h with pos := congrArg (· + 1) h.pos }⟩
    | truncate =>
      have hskip : Alike { s₁ with pos := s₁.pos + 8 } { s₂ with pos := s₂.pos + 8 } :=
        { h with pos := congrArg (· + 8) h.pos }
      exact ⟨_, _, rfl, rfl, hskip.raiseError _ _ _⟩
    | dispatch m =>
      exact ⟨_, _, rfl, rfl, { h with
        pos := congrArg (· + 8) h.pos
        st := rfl
        cur := rfl
        status := by rw [h.status]
        running := fun _ => hlen
        stage := fun _ => rfl
        further := fun _ => rfl }⟩
    | line g eof => exact ⟨_, _, rfl, rfl, { h with eof := rfl, stage := fun _ => rfl }⟩
    | word i p g eof =>
      obtain ⟨-, line⟩ := wordLine_of_plan hplan
      exact h.perform_word (halone₁.config hst) hst line eof
    | chunk p =>
      exact ⟨_, _, rfl, rfl, { h with pos := rfl, stage := fun _ => rfl, further := fun _ => rfl }⟩
    | complete =>
      exact ⟨_, _, rfl, rfl, { h with st := rfl, running := fun _ => hlen, stage := nofun, further := nofun }⟩
    | finish => exact ⟨_, _, rfl, rfl, h.finish⟩

end

/-! ## Whole runs -/

/-- Two runs, side by side for any number of turns. -/
theorem alike_after {s₁ s₂ : State} (h : Alike s₁ s₂) (halone₁ : Alone s₁) (halone₂ : Alone s₂) (k : Nat) :
    ∃ t₁ t₂, s₁.after k = .next t₁ ∧ s₂.after k = .next t₂ ∧ Alike t₁ t₂ := by
  induction k generalizing s₁ s₂ with
  | zero => exact ⟨s₁, s₂, rfl, rfl, h⟩
  | succ k ih =>
    obtain ⟨u₁, u₂, h₁, h₂, hu⟩ := h.step halone₁ halone₂
    rw [after_of_step h₁, after_of_step h₂]
    exact ih hu (alone_step halone₁ h₁) (alone_step halone₂ h₂)

/-- R260: START makes two blocks with the same inputs alike. -/
theorem alike_beginRun {s₁ s₂ : State} (hcap : s₁.cfg.outCap = s₂.cfg.outCap) (hbaud : s₁.baud = s₂.baud)
    (hlead : s₁.leadinS = s₂.leadinS) (hlen : s₁.casLen = s₂.casLen)
    (hstream : ∀ x, x < s₁.casLen.toNat → casByte s₁ x = casByte s₂ x) : Alike (beginRun s₁) (beginRun s₂) where
  outCap := hcap.symm
  baud := hbaud.symm
  leadinS := hlead.symm
  casLen := hlen.symm
  stream x hx := (hstream x hx).symm
  status := rfl
  outLen := rfl
  st := rfl
  cur := rfl
  pos := rfl
  eof := rfl
  wp := rfl
  trace := rfl
  stage := nofun
  further := nofun
  running := fun _ => rfl
  samples := fun _ hlow hhigh => absurd hhigh (Nat.not_lt.mpr hlow)
  result := absurd rfl

/-- R264: what the host sees of alike runs. -/
theorem Alike.hostView {s₁ s₂ : State} (h : Alike s₁ s₂) : hostView s₁ = hostView s₂ := by
  have hbytes : ∀ a ∈ List.range s₁.outLen.toNat, s₁.out.read a = s₂.out.read a := by
    intro a ha
    have hlt := List.mem_range.mp ha
    obtain ⟨hwp, hheader⟩ := h.result fun h0 => by rw [h0] at hlt; exact absurd hlt (Nat.not_lt_zero a)
    rcases Nat.lt_or_ge a 44 with hlow | hhigh
    · exact (hheader a (Nat.zero_le a) hlow).symm
    · exact (h.samples a hhigh (hwp ▸ hlt)).symm
  rw [Machine.hostView, Machine.hostView, h.status, h.outLen, List.map_congr_left hbytes]

/-- Settles O60: the two runs begin alike and stay so. -/
theorem resultDependsOnInputsAlone : Obligations.ResultDependsOnInputsAlone := by
  intro s₁ s₂ a₁ a₂ k hq₁ hq₂ hcfg₁ hcfg₂ hcap hbaud hlead hlen hstream h₁ h₂
  obtain ⟨-, -, hbusy₁, hturn₁⟩ := hq₁
  obtain ⟨-, -, hbusy₂, hturn₂⟩ := hq₂
  rw [exec_start_ok hbusy₁ hcfg₁] at h₁
  rw [exec_start_ok hbusy₂ hcfg₂] at h₂
  cases h₁
  cases h₂
  obtain ⟨t₁, t₂, ht₁, ht₂, h⟩ := alike_after (alike_beginRun hcap hbaud hlead hlen hstream)
    (alone_beginRun hturn₁ hcfg₁) (alone_beginRun hturn₂ hcfg₂) k
  exact ⟨t₁, t₂, ht₁, ht₂, h.hostView, h.trace.symm⟩

end Sys2Proof.Proofs
end

section
/-! A START run and the program of its words at the micro-operation port agree (R267): at every moment of the run, the
program of the words issued so far has brought the port to the same samples. -/

namespace Sys2Proof.Proofs

open Sys2Proof.Machine Sys2Proof.Laws

/-! ## The port beside the run -/

/-- Turns of the machine, any number of them. -/
def Reaches : State → State → Prop := Relation.ReflTransGen fun s t => step s = .next t

theorem after_of_reaches {s t : State} (h : Reaches s t) : ∃ k, s.after k = .next t := by
  induction h using Relation.ReflTransGen.head_induction_on with
  | refl => exact ⟨0, rfl⟩
  | head hstep _ ih =>
    obtain ⟨k, hk⟩ := ih
    exact ⟨k + 1, (after_of_step hstep k).trans hk⟩

/-- The port of a block that was at rest in `s`, with the samples of `u` stored and the words `ws` still to execute. -/
def portBeside (s u : State) (ws : List Word) (r : Transient) : State :=
  { clearResult { s with schedule := [] } with
    status := { Status.clear with busy := true }
    out := u.out
    wp := u.wp
    regs := r
    prog := some ws }

/-- R266: where the port stands once it is driven. -/
def portEntry (s : State) (ws : List Word) : State := portBeside s (beginRun s) ws s.regs

theorem step_drive_portEntry {s : State} (hbusy : s.status.busy = false) (hcfg : configOk s = true) (ws : List Word) :
    step { s with schedule := [.host (.drive ws)] } = .next (portEntry s ws) := by
  obtain ⟨hbaud, -, -⟩ := (configOk_iff s).mp hcfg
  rw [step_drive (s := { s with schedule := [.host (.drive ws)] }) rfl hbusy,
    beginProgram_legal (s := { s with schedule := [] }) hbaud]
  rfl

section
variable {s u : State} (hcfg : u.cfg = s.cfg) {f : Nat} (hf : baudFactor s.baud = some f) {i : Instr}
  (hwf : WellFormed i = true) (hm : i.isMicroOp = true) (hfin : i ≠ .fin) (ws : List Word) (q : Transient)

include hcfg in
theorem outRoom_portBeside : outRoom (portBeside s u ws q) = outRoom u := by
  rw [outRoom, outRoom, hcfg]
  rfl

include hcfg in
theorem storeFitting_portBeside (vs : List Byte) (r : Transient) :
    storeFitting vs r (portBeside s u ws q) = portBeside s (storeFitting vs r u) ws r := by
  rw [storeFitting, storeFitting, outRoom_portBeside hcfg]
  rfl

include hwf hm hfin in
/-- R266: a word of the port, other than FIN. -/
theorem step_portBeside :
    step (portBeside s u (encode i :: ws) q) = exec i (portBeside s u ws q) := by
  have hafter : afterPortWord i = id := funext (afterPortWord_of_ne_fin hfin)
  rw [step_port_word rfl rfl (decodeMop_encode hwf hm), hafter, thenDo_id]
  rfl

include hcfg hf hwf hm hfin

theorem step_portBeside_of_fits (h : (microSamples f i).length ≤ outRoom u) :
    ∃ r, step (portBeside s u (encode i :: ws) q) =
      .next (portBeside s (storeFitting (microSamples f i) r u) ws r) := by
  obtain ⟨r, hexec⟩ := exec_of_fits (s := portBeside s u ws q) hf hm hfin (outRoom_portBeside hcfg ws q ▸ h)
  exact ⟨r, by rw [step_portBeside hwf hm hfin, hexec, storeFitting_portBeside hcfg]⟩

theorem step_portBeside_of_overflow (h : ¬ (microSamples f i).length ≤ outRoom u) :
    ∃ x r, step (portBeside s u (encode i :: ws) q) =
      .next (raiseError .outputOverflow x (portBeside s (storeFitting (microSamples f i) r u) ws r)) := by
  obtain ⟨x, r, hexec⟩ := exec_of_overflow (s := portBeside s u ws q) hf hm hfin (outRoom_portBeside hcfg ws q ▸ h)
  exact ⟨x, r, by rw [step_portBeside hwf hm hfin, hexec, storeFitting_portBeside hcfg]⟩

end

/-! ## The run and the port, turn by turn -/

/-- The run stands at `u`, and a program of the words issued so far, whatever stands behind them, comes to the same
samples at the port. -/
structure Paced (s u : State) : Prop where
  cfg : u.cfg = s.cfg
  baud : u.baud = s.baud
  done : u.status.done = false
  err : u.status.err = false
  errcode : u.status.errcode = .none
  port : ∀ ws, ∃ r, Reaches (portEntry s (u.trace ++ ws)) (portBeside s u ws r)

/-- How a finished run and a finished program compare (R267): but for a TRUNCATED_BLOCK, which comes from the TPSM, and
the mode, which a program does not set. -/
structure SameEnd (t v : State) : Prop where
  runOver : t.status.busy = false
  programOver : v.status.busy = false
  programDone : v.status.done = true
  out : v.out = t.out
  mode : v.status.mode = .unknown
  modeValid : v.status.modeValid = false
  truncated : t.status.errcode = .truncatedBlock → v.status.err = false
  result : t.status.errcode ≠ .truncatedBlock →
    v.outLen = t.outLen ∧ v.status.err = t.status.err ∧ v.status.errcode = t.status.errcode

/-- The run is going on with the port beside it, or it has ended as the program of its words does. -/
def PortFollows (s u : State) : Prop :=
  (u.st ≠ .idle ∧ Paced s u) ∨ (u.st = .idle ∧ ∃ v, Reaches (portEntry s u.trace) v ∧ SameEnd u v)

theorem paced_beginRun (s : State) : Paced s (beginRun s) :=
  ⟨rfl, rfl, rfl, rfl, rfl, fun _ => ⟨s.regs, .refl⟩⟩

/-! ## A turn of the run -/

section
variable {s u : State} (h : Paced s u)
include h

/-- R207, R266: the program of a truncated run ends at the end of its list. -/
theorem Paced.truncated (x : Option ErrorInfo) (p : Word) :
    PortFollows s (raiseError .truncatedBlock x { u with pos := p }) := by
  obtain ⟨r, hport⟩ := h.port []
  rw [List.append_nil] at hport
  exact .inr ⟨rfl, _, hport.tail (step_port_empty rfl rfl),
    ⟨rfl, rfl, rfl, rfl, rfl, rfl, fun _ => rfl, fun hne => absurd rfl hne⟩⟩

/-- R216, R266: FIN ends both. -/
theorem Paced.finish : PortFollows s (endRun { u with
    trace := u.trace ++ [encode .fin], out := writeHeader (headerFields (u.wp - 44)) u.out, outLen := u.wp }) := by
  obtain ⟨r, hport⟩ := h.port [encode .fin]
  exact .inr ⟨rfl, _, hport.tail (step_port_fin rfl rfl decodeMop_encode_fin),
    ⟨rfl, rfl, rfl, rfl, rfl, rfl, fun _ => rfl, fun _ => ⟨rfl, h.err.symm, h.errcode.symm⟩⟩⟩

/-- R201, R266: a word of the run is the port's next word. -/
theorem Paced.word (hcfg : configOk u = true) (hst : u.st ≠ .idle) {i : Instr} {p : Word} {g : Stage}
    (line : WordLine u i p g) (eof : Bool) {t : State} (ht : (Plan.word i p g eof).perform u = .next t) :
    PortFollows s t := by
  obtain ⟨hwf, hm, hfin⟩ := wordLine_wellFormed hcfg line
  obtain ⟨f, hf⟩ := Option.isSome_iff_exists.mp (baud_of_configOk hcfg)
  have hfport : baudFactor s.baud = some f := h.baud ▸ hf
  by_cases hfit : (microSamples f i).length ≤ outRoom u
  · obtain ⟨r, hrun⟩ := perform_word_of_fits hf hm hfin hst hfit p g eof
    rw [hrun] at ht
    cases ht
    refine .inl ⟨hst, { h with port := fun ws => ?_ }⟩
    obtain ⟨q, hport⟩ := h.port (encode i :: ws)
    obtain ⟨r', hturn⟩ := step_portBeside_of_fits h.cfg hfport hwf hm hfin ws q hfit
    rw [List.append_cons] at hport
    exact ⟨r', hport.tail hturn⟩
  · obtain ⟨x, r, hrun⟩ := perform_word_of_overflow hf hm hfin hfit p g eof
    rw [hrun] at ht
    cases ht
    obtain ⟨q, hport⟩ := h.port [encode i]
    obtain ⟨x', r', hturn⟩ := step_portBeside_of_overflow h.cfg hfport hwf hm hfin [] q hfit
    exact .inr ⟨rfl, _, hport.tail hturn,
      ⟨rfl, rfl, rfl, rfl, rfl, rfl, nofun, fun _ => ⟨rfl, rfl, rfl⟩⟩⟩

/-- A turn of the run, by its plan: the turns that issue no word leave the port where it is. -/
theorem Paced.step (halone : Alone u) (hst : u.st ≠ .idle) {t : State} (ht : step u = .next t) : PortFollows s t := by
  rw [step_eq_perform halone] at ht
  generalize hplan : plan u = turn at ht
  cases turn with
  | word i p g eof =>
    obtain ⟨-, line⟩ := wordLine_of_plan hplan
    exact h.word (halone.config hst) hst line eof ht
  | truncate =>
    cases ht
    exact h.truncated _ _
  | finish =>
    cases ht
    exact h.finish
  | dispatch m =>
    cases ht
    refine .inl ⟨nofun, ?_⟩
    cases hmode : u.status.modeValid with
    | true => exact { h with }
    | false => exact { h with }
  | scanEnd =>
    cases ht
    exact .inl ⟨nofun, { h with }⟩
  | complete =>
    cases ht
    exact .inl ⟨nofun, { h with }⟩
  | _ =>
    cases ht
    exact .inl ⟨hst, { h with }⟩

end

/-! ## The whole run -/

theorem portFollows_after {s t : State} (hturn : s.schedule = []) (hcfg : configOk s = true) {k : Nat}
    (h : (beginRun s).after k = .next t) : PortFollows s t := by
  have hbegin : Alone (beginRun s) ∧ PortFollows s (beginRun s) :=
    ⟨alone_beginRun hturn hcfg, .inl ⟨nofun, paced_beginRun s⟩⟩
  refine (after_induction (P := fun u => Alone u ∧ PortFollows s u) ?_ hbegin h).right
  rintro u v ⟨halone, hu⟩ hstep
  refine ⟨alone_step halone hstep, ?_⟩
  rcases hu with ⟨hst, hpaced⟩ | ⟨hst, hended⟩
  · exact hpaced.step halone hst hstep
  · rw [step_idle halone.turn hst] at hstep
    cases hstep
    exact .inr ⟨hst, hended⟩

/-- Settles O59: a run that is done is not going on, so it has ended as the program of its trace does. -/
theorem runEqualsProgramOfItsTrace : Obligations.RunEqualsProgramOfItsTrace := by
  intro s a t k _ hq hcfg hstart hrun hdone
  obtain ⟨-, -, hbusy, hturn⟩ := hq
  rw [exec_start_ok hbusy hcfg] at hstart
  cases hstart
  rcases portFollows_after hturn hcfg hrun with ⟨-, hpaced⟩ | ⟨-, v, hreach, hsame⟩
  · have hnot := hpaced.done
    rw [hdone] at hnot
    cases hnot
  · obtain ⟨j, hj⟩ := after_of_reaches hreach
    have hdrive := (after_of_step (step_drive_portEntry hbusy hcfg t.trace) j).trans hj
    exact ⟨j + 1, v, Nat.le_add_left 1 j, hdrive, hsame.programDone, hsame.programOver, hsame.runOver, hsame.out,
      hsame.mode, hsame.modeValid, hsame.truncated, hsame.result⟩

end Sys2Proof.Proofs
end

section
/-! An illegal word at the micro-operation port (R98, R266, R304, R306). -/

namespace Sys2Proof.Proofs

open Sys2Proof.Machine Sys2Proof.Laws

/-- R306: a word that decodes to no micro-operation issues nothing; the turn is the error. -/
theorem portMove_illegal {w : Word} {e : Reject} (h : decodeMop w = .error e) (ws : List Word) (s : State) :
    portMove (w :: ws) s = .settled (.next (raiseError .illegalMop (some (.word w)) s)) := by
  rw [portMove, h]

/-- R266, R306: an illegal word at the head of the port; the words behind it are dropped. -/
theorem step_port_illegal {s : State} {w : Word} {ws : List Word} {e : Reject} (hs : s.schedule = [])
    (hp : s.prog = some (w :: ws)) (h : decodeMop w = .error e) :
    step s = .next (raiseError .illegalMop (some (.word w)) s) :=
  step_of_settled ((fetch_port hs hp).trans (portMove_illegal h ws s))

/-- Settles O26: what is raised is R304's record of the error, which touches no OUT byte and no cursor. -/
theorem illegalWordEndsProgram : Obligations.IllegalWordEndsProgram :=
  fun _ _ _ _ => step_port_illegal

end Sys2Proof.Proofs
end

section
/-! A read of STATUS during a run (R28, R350), a turn of the block in IDLE (R342), and how a table word placed by
`withFetchWord` is fetched (log 4, log 5). -/

namespace Sys2Proof.Proofs

open Sys2Proof.Machine Sys2Proof.Laws

/-! ## STATUS while BUSY -/

/-- R28: BUSY is bit 0 of STATUS. -/
theorem status_word_bit_zero (x : Status) : x.word.getLsbD 0 = x.busy := by
  have hbusy := Bool.toNat_lt x.busy
  rw [Bool.eq_iff_iff, getLsbD_zero_iff, status_word_toNat, ← Bool.toNat_eq_one]
  omega

theorem taintedMode_untainted {r : Status × State} (h : r.2.casTainted = false) : taintedMode r = r := by
  simp [taintedMode, h]

/-- R350: where no CAS write put the mode in doubt, STATUS reads as recorded or with the mode not shown, at the cost of a
free choice. -/
theorem statusFields_untainted {s : State} (h : s.casTainted = false) :
    ∃ x n, statusFields s = (x, { s with draws := n }) ∧ (x = s.status ∨ x = s.status.hideMode) := by
  unfold statusFields
  split
  next => exact ⟨_, s.draws + 1, taintedMode_untainted h, ite_eq_or_eq _ _ _⟩
  next => exact ⟨s.status, s.draws, taintedMode_untainted h, .inl rfl⟩

/-- Settles O42: what is shown is one of two STATUS words, and both have BUSY as it stands. -/
theorem statusReadWhileBusy : Obligations.StatusReadWhileBusy := by
  intro s rest hs hbusy htaint
  obtain ⟨x, n, hfields, hx⟩ := statusFields_untainted (s := { s with schedule := rest }) htaint
  have hread : readRegister 0x04 { s with schedule := rest } = (x.word, { s with schedule := rest, draws := n }) := by
    rw [readRegister, if_pos rfl, hfields]
  refine ⟨_, step_readReg hs (by decide), ?_⟩
  rw [hread]
  refine ⟨rfl, hx.imp (congrArg Status.word) (congrArg Status.word), ?_⟩
  rw [status_word_bit_zero]
  rcases hx with rfl | rfl
  · exact hbusy
  · exact hbusy

/-! ## In IDLE -/

/-- Settles O28. -/
theorem idleBlockWaits : Obligations.IdleBlockWaits :=
  fun _ => step_idle

/-! ## A placed table word -/

/-- Log 5: a table word is a legal micro-operation, or else a host command. -/
theorem decodeTableWord_cases {nbits w : Nat} {i : Instr} (h : decodeTableWord nbits w = some i) :
    decodeMop (BitVec.ofNat 32 (w % 2 ^ nbits)) = .ok i ∨
    (∃ e, decodeMop (BitVec.ofNat 32 (w % 2 ^ nbits)) = .error e) ∧
      decodeCtrl (BitVec.ofNat 32 (w % 2 ^ nbits)) = .ok i := by
  unfold decodeTableWord at h
  dsimp only at h
  split at h
  next j hmop => exact .inl (hmop.trans (congrArg _ (Option.some.inj h)))
  next e hmop =>
    split at h
    next j hctrl => exact .inr ⟨⟨e, hmop⟩, hctrl.trans (congrArg _ (Option.some.inj h))⟩
    next => cases h

/-- Log 4: a micro-operation becomes the head of a running program, and the turn is the block's. -/
theorem placeWord_microOp {w : Word} {i : Instr} (h : decodeMop w = .ok i) (s : State) :
    placeWord w s = { s with
      status := { s.status with busy := true }
      prog := some (w :: s.prog.getD [])
      schedule := .block :: s.schedule } := by
  rw [placeWord, h]

/-- Log 4: a host command becomes a CTRL write of the host. -/
theorem placeWord_command {w : Word} {i : Instr} {e : Reject} (hmop : decodeMop w = .error e)
    (hctrl : decodeCtrl w = .ok i) (s : State) :
    placeWord w s = { s with schedule := .host (.writeReg .word 0 w) :: s.schedule } := by
  rw [placeWord, hmop, hctrl]

theorem fetch_scheduled_block {s : State} {rest : List Turn} (h : s.schedule = .block :: rest) :
    fetch s = blockMove { s with schedule := rest } := by
  rw [fetch, h]

/-- R266: a legal word at the head of the port's program is what a turn of the block fetches. -/
theorem blockMove_port_legal {s : State} {w : Word} {ws : List Word} {i : Instr} (hp : s.prog = some (w :: ws))
    (h : decodeMop w = .ok i) : blockMove s = .run i { s with prog := some ws } (afterPortWord i) := by
  rw [blockMove, hp]
  exact portMove_legal h ws s

/-- Settles O24, by the port that the word goes to. -/
theorem placedWordRunsNext : Obligations.PlacedWordRunsNext := by
  intro s w i htable
  rw [State.withFetchWord]
  rcases decodeTableWord_cases htable with hmop | ⟨⟨e, hmop⟩, hctrl⟩
  · rw [placeWord_microOp hmop, fetch_scheduled_block rfl, blockMove_port_legal rfl hmop]
    exact ⟨_, _, rfl, rfl, fun hcommand => by simp [decodeMop_isMicroOp hmop] at hcommand⟩
  · rw [placeWord_command hmop hctrl, fetch_host rfl, hostAccess_ctrl hctrl]
    exact ⟨_, _, rfl, rfl, fun _ => rfl⟩

end Sys2Proof.Proofs
end

section
/-! Every run ends (R220, R349): each turn of a TPSM run moves the cursor on or brings the TPSM nearer to the end at the
cursor it has, and each turn of a port program takes a word off its list. -/

namespace Sys2Proof.Proofs

open Sys2Proof.Machine Sys2Proof.Laws

/-! ## Ended runs -/

/-- A run is over as the host sees it (R28, R262, R304). -/
structure Ended (s : State) : Prop where
  done : s.status.done = true
  notBusy : s.status.busy = false

theorem ended_raiseError (e : ErrCode) (x : Option ErrorInfo) (s : State) : Ended (raiseError e x s) := ⟨rfl, rfl⟩

theorem ended_endRun (s : State) : Ended (endRun s) := ⟨rfl, rfl⟩

/-- Some number of turns ends the run. -/
def Ends (s : State) : Prop := ∃ t, Reaches s t ∧ Ended t

theorem ends_of_ended {s t : State} (hstep : step s = .next t) (h : Ended t) : Ends s := ⟨t, .single hstep, h⟩

theorem ends_of_step {s t : State} (hstep : step s = .next t) (h : Ends t) : Ends s := by
  obtain ⟨u, hreach, hended⟩ := h
  exact ⟨u, .head hstep hreach, hended⟩

/-! ## A program of the micro-operation port -/

/-- R266: a word at the head of the port ends the program, or is taken off it. -/
theorem step_port_progress {s : State} {f : Nat} {w : Word} {ws : List Word} (hs : s.schedule = [])
    (hp : s.prog = some (w :: ws)) (hf : baudFactor s.baud = some f) :
    ∃ t, step s = .next t ∧ (Ended t ∨ t.schedule = [] ∧ t.prog = some ws ∧ t.baud = s.baud) := by
  cases hw : decodeMop w with
  | error e => exact ⟨_, step_port_illegal hs hp hw, .inl (ended_raiseError _ _ _)⟩
  | ok i =>
    by_cases hfin : i = .fin
    · exact ⟨_, step_port_fin hs hp (hfin ▸ hw), .inl (ended_endRun _)⟩
    obtain ⟨es, r, -, hexec⟩ := exec_emits (s := { s with prog := some ws }) hf i (decodeMop_isMicroOp hw) hfin
    have hstep : step s = .next (emitAll es r { s with prog := some ws }) := by
      rw [step_port_word hs hp hw, hexec, thenDo, afterPortWord_of_ne_fin hfin]
    refine ⟨_, hstep, ?_⟩
    obtain ⟨out, wp, -, hemit⟩ | ⟨x, out, wp, regs, hemit⟩ := emitAll_outcome es r { s with prog := some ws }
    · exact hemit ▸ .inr ⟨hs, rfl, rfl⟩
    · exact hemit ▸ .inl (ended_raiseError _ _ _)

/-- R266, R349: a program is over after its last word at the latest. -/
theorem ends_of_program {s : State} {f : Nat} {ws : List Word} (hs : s.schedule = []) (hp : s.prog = some ws)
    (hf : baudFactor s.baud = some f) : Ends s := by
  induction ws generalizing s with
  | nil => exact ends_of_ended (step_port_empty hs hp) (ended_endRun s)
  | cons w ws ih =>
    obtain ⟨t, hstep, hended | ⟨hs', hp', hbaud⟩⟩ := step_port_progress hs hp hf
    · exact ends_of_ended hstep hended
    · exact ends_of_step hstep (ih hs' hp' (hbaud ▸ hf))

/-! ## What is left of a TPSM run -/

/-- The moves from a line of the policy to the end of its chunk, that end included, while the cursor stays. -/
def lineMoves : Stage → Nat
  | .silence => 5
  | .header => 4
  | .bytes => 3
  | .tail _ => 2
  | .chunkEnd => 1

/-- The moves to the end of the run, at most, while the cursor stays: a chunk leads to the scan, which needs two more; a
first chunk may lead to a second one, whose five come on top. -/
def movesInPlace (st : TpsmState) (g : Stage) (further : Bool) : Nat :=
  match st with
  | .dispatching => lineMoves g + if further then 2 else 7
  | .scanning => 2
  | .done => 1
  | .idle => 0

theorem movesInPlace_le (st : TpsmState) (g : Stage) (further : Bool) : movesInPlace st g further ≤ 12 := by
  cases st with
  | dispatching =>
    have hline : lineMoves g ≤ 5 := by cases g <;> simp [lineMoves]
    rw [movesInPlace]
    split <;> omega
  | scanning => exact Nat.le_add_left 2 10
  | done => exact Nat.le_add_left 1 11
  | idle => exact Nat.zero_le 12

/-- A bound on the moves of a run: those in place, and as many again for every byte the cursor can still pass. -/
def movesLeft (s : State) : Nat := 13 * bytesLeft s + movesInPlace s.st s.stage s.further

/-- Moving on to a new place pays for all the moves there. -/
theorem movesLeft_lt {s t : State} (hlen : t.casLen = s.casLen) (hup : s.pos.toNat ≤ t.pos.toNat)
    (hin : t.pos.toNat ≤ s.casLen.toNat) (h : s.pos.toNat < t.pos.toNat ∨
      movesInPlace t.st t.stage t.further < movesInPlace s.st s.stage s.further) : movesLeft t < movesLeft s := by
  have hmax := movesInPlace_le t.st t.stage t.further
  rw [movesLeft, movesLeft, bytesLeft, bytesLeft, hlen]
  omega

/-- R205 to R215: a move without a word moves the cursor on, or leaves fewer moves in place. -/
theorem silentMove_progress {s : State} {st : TpsmState} {p : Word} {g : Stage} {b : Bool}
    (hc : CursorOk s.casLen s.pos s.st s.stage) (h : SilentMove s st p g b) :
    s.pos.toNat < p.toNat ∨ movesInPlace st g b < movesInPlace s.st s.stage s.further := by
  cases h with
  | scanEnd state => exact .inr (by rw [state]; exact Nat.lt_succ_self 1)
  | scanOn state left => exact .inl (by rw [pos_succ_toNat (lt_casLen_of_left left)]; omega)
  | dispatch state left => exact .inl (by rw [(bytesLeft_skip_marker left).1]; omega)
  | tailBegin state line => exact .inr (by rw [state, line]; exact Nat.add_lt_add_right (by decide : 2 < 3) _)
  | marker state line => exact .inr (by rw [state, line]; exact Nat.add_lt_add_right (by decide : 1 < 3) _)
  | tailEnd t0 state line => exact .inr (by rw [state, line]; exact Nat.add_lt_add_right (by decide : 1 < 2) _)
  | complete state line => exact .inr (by rw [state, line]; cases s.further <;> decide)
  | nextAscii state line more =>
    exact .inl (by rw [(bytesLeft_skip_marker (hc.left_of_chunkEnd state line more)).1]; omega)
  | second state line first => exact .inr (by rw [state, line, first]; decide)

/-- R210 to R214: a BYTE word moves the cursor on, and a SIL or HDR word leads to the next line. -/
theorem wordLine_progress {s : State} {i : Instr} {p : Word} {g : Stage} (state : s.st = .dispatching)
    (h : WordLine s i p g) :
    s.pos.toNat < p.toNat ∨ movesInPlace s.st g s.further < movesInPlace s.st s.stage s.further := by
  cases h with
  | silence line => exact .inr (by rw [state, line]; exact Nat.add_lt_add_right (by decide : 4 < 5) _)
  | header line => exact .inr (by rw [state, line]; exact Nat.add_lt_add_right (by decide : 3 < 4) _)
  | byte b line left => exact .inl (by rw [pos_succ_toNat (lt_casLen_of_left left)]; omega)
  | tailByte b t0 line more => exact .inl (by rw [pos_succ_toNat more]; omega)

/-- A move of a TPSM run ends it or leaves fewer moves. -/
theorem move_progress {f : Nat} {s t : State} (hst : s.st ≠ .idle) (hc : CursorOk s.casLen s.pos s.st s.stage)
    (h : Move f s t) : Ended t ∨ t.st ≠ .idle ∧ movesLeft t < movesLeft s := by
  obtain ⟨hup, hcursor⟩ := move_cursor hc h
  cases h with
  | silent move =>
    exact .inr ⟨silentMove_running hst move, movesLeft_lt rfl hup hcursor.within (silentMove_progress hc move)⟩
  | truncated => exact .inl (ended_raiseError _ _ _)
  | word state line =>
    exact .inr ⟨hst, movesLeft_lt rfl hup hcursor.within (wordLine_progress state line)⟩
  | overflow => exact .inl (ended_raiseError _ _ _)
  | finish => exact .inl (ended_endRun _)

/-! ## Every run -/

/-- Log 3: with nothing scheduled the block moves, and nothing is scheduled afterwards. -/
theorem step_unscheduled {s : State} (hs : s.schedule = []) : ∃ t, step s = .next t ∧ t.schedule = [] := by
  obtain ⟨hblock, -⟩ := blockTurnKeepsInputs
  obtain ⟨t, hstep, -, -, -, -, -, -, hturns⟩ := hblock s (.inl hs)
  exact ⟨t, hstep, by rw [hturns, hs, List.tail_nil]⟩

/-- R200, R349: a TPSM run with the host silent, by the moves it has left. -/
theorem ends_of_tpsmRun {s : State} (h : s.Inv) (hs : s.schedule = []) (hst : s.st ≠ .idle) : Ends s := by
  have hcfg := h.config hst
  obtain ⟨f, hf⟩ := Option.isSome_iff_exists.mp (baud_of_configOk hcfg)
  obtain ⟨t, hstep, hs'⟩ := step_unscheduled hs
  have hmove : Move f s t := by
    refine move_tpsmMove hcfg hf hst ?_
    rw [← fetch_tpsm ⟨hs, h.oneRun hst⟩, ← step_eq_outcome, hstep]
  rcases move_progress hst (cursorOk_of_inv h hst) hmove with hended | ⟨hrun, hless⟩
  · exact ends_of_ended hstep hended
  · exact ends_of_step hstep (ends_of_tpsmRun (stepKeepsInv s t h hstep) hs' hrun)
termination_by movesLeft s

/-- Settles O56: BUSY is a TPSM run or a program of the port. -/
theorem everyRunEnds : Obligations.EveryRunEnds := by
  intro s h hbusy hs
  have hends : Ends s := by
    cases situation_of_inv h with
    | rest idle noProgram quiet => simp [quiet] at hbusy
    | program ws idle loaded busy baud =>
      obtain ⟨f, hf⟩ := Option.isSome_iff_exists.mp baud
      exact ends_of_program hs loaded hf
    | scanning state => exact ends_of_tpsmRun h hs (by simp [state])
    | dispatching state => exact ends_of_tpsmRun h hs (by simp [state])
    | finishing state => exact ends_of_tpsmRun h hs (by simp [state])
  obtain ⟨t, hreach, hended⟩ := hends
  obtain ⟨k, hk⟩ := after_of_reaches hreach
  exact ⟨k, t, hk, hended.done, hended.notBusy⟩

end Sys2Proof.Proofs
end
